-- ==== Sys2Proof/Word.lean ====
section
/-! DEFINITION. The bit vectors of the station links and of the profile image (spec/10, R174 and R178; spec/09, R157). -/

namespace Sys2Proof

/-- One character of a station link: 8 data bits (R174). -/
abbrev Byte := BitVec 8

/-- A field of two bytes: a reference, a pressure, a correction, a book revision, a loss count (R178). -/
abbrev Half := BitVec 16

/-- A field of four bytes, and a field of the profile image (R157, R178). -/
abbrev Word := BitVec 32

end Sys2Proof
end

