-- ==== Sys2Proof/Syntax.lean ====
section
/-! DEFINITION. The commands: one constructor of `Instr` for each row of spec/opcode_table.json, with the fields that the
request catalogue (spec/10, section 10.8) or the rule of the event gives it. -/

namespace Sys2Proof

/-- The three station ports (spec/00, section 2): plant, trade and grid. -/
inductive Port where
  | pp | tp | gp
deriving DecidableEq, Repr

/-- The seven trains, in the order C1 to C4, E1 to E3 in which every rule takes them (R85). -/
inductive Train where
  | c1 | c2 | c3 | c4 | e1 | e2 | e3
deriving DecidableEq, Repr

/-- The three tiers of the heat store (spec/00, section 1). -/
inductive Tier where
  | t1 | t2 | t3
deriving DecidableEq, Repr

/-- One value for each train. -/
structure PerTrain (α : Type) where
  c1 : α
  c2 : α
  c3 : α
  c4 : α
  e1 : α
  e2 : α
  e3 : α
deriving DecidableEq, Repr

/-- One value for each tier. -/
structure PerTier (α : Type) where
  t1 : α
  t2 : α
  t3 : α
deriving DecidableEq, Repr

/-- What a METER carries for one train: status code, output in kW, mass totaliser in kg (spec/10, section 10.9). -/
structure TrainReading where
  status : Byte
  output : Word
  mass : Word
deriving DecidableEq, Repr

/-- What a METER carries for one tier: heat-in and heat-out totalisers in MJ. -/
structure TierReading where
  heatIn : Word
  heatOut : Word
deriving DecidableEq, Repr

/-- The fields of a METER request (spec/10, section 10.9). -/
structure MeterReport where
  trains : PerTrain TrainReading
  pressure : Half
  tiers : PerTier TierReading
deriving DecidableEq, Repr

/-- The fields of a SUBMIT request as they stand in its frame (spec/10, section 10.9): nothing is tested yet. -/
structure BlockFields where
  reference : Half
  first : Word
  length : Byte
  direction : Byte
  power : Word
  reserveUp : Word
  reserveDown : Word
deriving DecidableEq, Repr

/-- What a line brings, one after another: a port's receive line any of these (R175), its transmit line breaks and bytes (R174). -/
inductive LineEvent where
  /-- A break: the line held low for at least 12 bit times (R174). -/
  | brk
  /-- A byte with good parity and a stop bit. -/
  | byte (b : Byte)
  | parityError
  /-- A byte with no stop bit where the line is not in a break. -/
  | noStopBit
  /-- More than 2 ms since the end of the last byte. -/
  | gap
deriving DecidableEq, Repr

/-- The commands. A request is one frame completed on its port; every other row is an event of the part. The level of a
trip input is `true` when high. -/
inductive Instr where
  /-- The supply has risen (R167); `lines` are the trip-input levels sampled then (R87). -/
  | powerOnReset (lines : PerTrain Bool)
  /-- RSTN returns high after a low of `lowMicros` microseconds (R187). -/
  | pinReset (lowMicros : Nat) (lines : PerTrain Bool)
  /-- The receive line brings `line`, in which frames are discarded: damaged (R175, R176), or complete while a response is owed
  (R177). -/
  | frameDiscard (p : Port) (line : List LineEvent)
  /-- A good frame whose kind is not in the port's catalogue (R177 step 2). -/
  | unknownKind (p : Port) (kind : Byte)
  /-- The last byte of the owed response has been sent (R179). -/
  | responseSent (p : Port)
  | status (p : Port)
  | causes (p : Port)
  | enables (p : Port) (mask : Byte)
  | clearLink (p : Port)
  | meter (report : MeterReport)
  | anchor (pressure : Half) (heat : PerTier Word)
  /-- DECLARE with any declaration code but 2 (OFFLINE): code 1 is AVAILABLE, any other is refused (R92, R178). -/
  | declareAvailable (train : Byte) (declaration : Byte) (starts : Byte)
  /-- DECLARE with declaration code 2; its start count is ignored (section 10.8). -/
  | declareOffline (train : Byte)
  | release (train : Byte)
  | trainRead (train : Byte)
  | profileRead (field : Byte) (image : Byte)
  | profileWrite (field : Byte) (value : Word)
  | profileStore
  | profileStoreCompletion
  | profileLoad
  | profileCheck
  | profileCheckCompletion
  /-- A fault of the volatile memory leaves `value` in working field `field` (R157). -/
  | profileMemoryFault (field : Byte) (value : Word)
  | enterService
  | enterMaintenance
  | clockSet (interval : Word) (millis : Word)
  | clockTrim (correction : Half)
  | submit (b : BlockFields)
  | withdraw (reference : Half)
  | abandon
  | checkMode (code : Byte)
  | bookRead (ordinal : Byte)
  | position
  | recordRead (interval : Word)
  | activate (requested : Word)
  | poll
  | dispatchTick
  | lossTick
  | staleOnset
  | intervalBoundary
  | minDownExpiry (t : Train)
  | minRunExpiry (t : Train)
  | startTimerExpiry (t : Train)
  | stopTimerExpiry (t : Train)
  | cooldownExpiry (t : Train)
  | startHistoryPrune (t : Train)
  | permitHoldExpiry
  | dwellExpiry
  | gridLinkLoss
  | activationHoldExpiry
  | backgroundCheck
  | tripFallingEdge (t : Train)
  | tripRisingEdge (t : Train)
  | checkCompletion
  | reviewCompletion
  /-- A good frame of a catalogue kind whose length is not the catalogue's (R177 step 3). -/
  | badLength (p : Port) (kind : Byte) (length : Byte)
deriving DecidableEq, Repr

end Sys2Proof
end

