-- ==== Sys2Proof/Decode.lean ====
section
/-! DEFINITION. The frames of the station links (spec/10, sections 10.2, 10.3, 10.8 and 10.9): the byte order and CRC-8, the
request catalogue, the reader that makes a command of a received frame, and the writer of request frames. The rows of
spec/opcode_table.json carry no bits, so `decodeTableWord` answers none. -/

namespace Sys2Proof

/-- The `k` low bytes of a number, most significant byte first (R178). -/
def beBytes : Nat → Nat → List Byte
  | 0, _ => []
  | k + 1, n => BitVec.ofNat 8 (n / 256 ^ k) :: beBytes k n

/-- The number that bytes spell, most significant byte first (R178). -/
def beValue (bytes : List Byte) : Nat :=
  bytes.foldl (fun acc b => acc * 256 + b.toNat) 0

/-- `k` bytes of a payload from offset `at`, as a number. -/
def fieldAt (payload : List Byte) (off k : Nat) : Nat :=
  beValue ((payload.drop off).take k)

def byteAt (payload : List Byte) (off : Nat) : Byte := BitVec.ofNat 8 (fieldAt payload off 1)
def halfAt (payload : List Byte) (off : Nat) : Half := BitVec.ofNat 16 (fieldAt payload off 2)
def wordAt (payload : List Byte) (off : Nat) : Word := BitVec.ofNat 32 (fieldAt payload off 4)

/-- One shift of the CRC-8 register: left by one bit, then the exclusive-or with 0x2F where a 1 was dropped (R176). -/
def crc8Shift (r : Byte) : Byte :=
  if r.msb then (r <<< 1) ^^^ 0x2F#8 else r <<< 1

/-- One byte taken into the CRC-8 register (R176). -/
def crc8Byte (r b : Byte) : Byte :=
  let x := r ^^^ b
  crc8Shift (crc8Shift (crc8Shift (crc8Shift (crc8Shift (crc8Shift (crc8Shift (crc8Shift x)))))))

/-- The CRC-8 of kind, length and payload bytes, from 0xFF (R176). -/
def crc8 (bytes : List Byte) : Byte :=
  bytes.foldl crc8Byte 0xFF#8

/-- A frame, in either direction, after its break (R174). -/
structure Frame where
  kind : Byte
  length : Byte
  payload : List Byte
  crc : Byte
deriving DecidableEq, Repr

/-- The bytes of a frame in the order of R174. -/
def Frame.bytes (f : Frame) : List Byte := f.kind :: f.length :: (f.payload ++ [f.crc])

/-- The CRC-8 that a frame of these parts carries (R176). -/
def frameCrc (kind : Byte) (payload : List Byte) : Byte := crc8 (kind :: BitVec.ofNat 8 payload.length :: payload)

/-- The frame that a sender makes of a kind and a payload: the length byte is the number of payload bytes, the CRC-8 is over kind,
length and payload (R174, R176). -/
def Frame.make (kind : Byte) (payload : List Byte) : Frame where
  kind := kind
  length := BitVec.ofNat 8 payload.length
  payload := payload
  crc := frameCrc kind payload

/-- The bytes of a frame after its break: kind, length, payload, CRC-8 (R174). -/
def frameBytes (kind : Byte) (payload : List Byte) : List Byte := (Frame.make kind payload).bytes

/-- The longest payload (R174). -/
def maxPayload : Nat := 120

/-- The request catalogue of section 10.8: the payload length of a request kind on a port, none where the port does not
have the kind. -/
def catalogue (p : Port) (kind : Byte) : Option Nat :=
  match kind.toNat, p with
  | 0x01, _ => some 0
  | 0x02, _ => some 0
  | 0x03, _ => some 1
  | 0x04, _ => some 0
  | 0x10, .pp => some 89
  | 0x11, .pp => some 14
  | 0x12, .pp => some 3
  | 0x13, .pp => some 1
  | 0x14, .pp => some 1
  | 0x15, .pp => some 2
  | 0x16, .pp => some 5
  | 0x17, .pp => some 0
  | 0x18, .pp => some 0
  | 0x19, .pp => some 0
  | 0x1A, .pp => some 0
  | 0x1B, .pp => some 0
  | 0x20, .tp => some 8
  | 0x21, .tp => some 2
  | 0x22, .tp => some 20
  | 0x23, .tp => some 2
  | 0x24, .tp => some 0
  | 0x25, .tp => some 1
  | 0x26, .tp => some 1
  | 0x27, .tp => some 0
  | 0x28, .tp => some 4
  | 0x30, .gp => some 4
  | 0x31, .gp => some 0
  | _, _ => none

def readTrain (payload : List Byte) (off : Nat) : TrainReading where
  status := byteAt payload off
  output := wordAt payload (off + 1)
  mass := wordAt payload (off + 5)

def readTier (payload : List Byte) (off : Nat) : TierReading where
  heatIn := wordAt payload off
  heatOut := wordAt payload (off + 4)

/-- The METER layout of section 10.9. -/
def readMeter (payload : List Byte) : MeterReport where
  trains :=
    { c1 := readTrain payload 0, c2 := readTrain payload 9, c3 := readTrain payload 18, c4 := readTrain payload 27,
      e1 := readTrain payload 36, e2 := readTrain payload 45, e3 := readTrain payload 54 }
  pressure := halfAt payload 63
  tiers := { t1 := readTier payload 65, t2 := readTier payload 73, t3 := readTier payload 81 }

/-- The SUBMIT layout of section 10.9. -/
def readBlock (payload : List Byte) : BlockFields where
  reference := halfAt payload 0
  first := wordAt payload 2
  length := byteAt payload 6
  direction := byteAt payload 7
  power := wordAt payload 8
  reserveUp := wordAt payload 12
  reserveDown := wordAt payload 16

/-- A request of the port's catalogue with a payload of the catalogue's length, as a command; `none` for a kind that the
port does not have. -/
def readRequest (p : Port) (kind : Byte) (payload : List Byte) : Option Instr :=
  match kind.toNat, p with
  | 0x01, _ => some (.status p)
  | 0x02, _ => some (.causes p)
  | 0x03, _ => some (.enables p (byteAt payload 0))
  | 0x04, _ => some (.clearLink p)
  | 0x10, .pp => some (.meter (readMeter payload))
  | 0x11, .pp => some (.anchor (halfAt payload 0)
      { t1 := wordAt payload 2, t2 := wordAt payload 6, t3 := wordAt payload 10 })
  | 0x12, .pp =>
      if byteAt payload 1 = 2#8 then some (.declareOffline (byteAt payload 0))
      else some (.declareAvailable (byteAt payload 0) (byteAt payload 1) (byteAt payload 2))
  | 0x13, .pp => some (.release (byteAt payload 0))
  | 0x14, .pp => some (.trainRead (byteAt payload 0))
  | 0x15, .pp => some (.profileRead (byteAt payload 0) (byteAt payload 1))
  | 0x16, .pp => some (.profileWrite (byteAt payload 0) (wordAt payload 1))
  | 0x17, .pp => some .profileStore
  | 0x18, .pp => some .profileLoad
  | 0x19, .pp => some .profileCheck
  | 0x1A, .pp => some .enterService
  | 0x1B, .pp => some .enterMaintenance
  | 0x20, .tp => some (.clockSet (wordAt payload 0) (wordAt payload 4))
  | 0x21, .tp => some (.clockTrim (halfAt payload 0))
  | 0x22, .tp => some (.submit (readBlock payload))
  | 0x23, .tp => some (.withdraw (halfAt payload 0))
  | 0x24, .tp => some .abandon
  | 0x25, .tp => some (.checkMode (byteAt payload 0))
  | 0x26, .tp => some (.bookRead (byteAt payload 0))
  | 0x27, .tp => some .position
  | 0x28, .tp => some (.recordRead (wordAt payload 0))
  | 0x30, .gp => some (.activate (wordAt payload 0))
  | 0x31, .gp => some .poll
  | _, _ => none

/-- A complete frame with a good CRC, examined as R177 steps 2 to 4 examine it (step 1 needs the port's state and is the
machine's). -/
def readFrame (p : Port) (kind : Byte) (payload : List Byte) : Instr :=
  match catalogue p kind with
  | none => .unknownKind p kind
  | some n =>
    if payload.length = n then (readRequest p kind payload).getD (.unknownKind p kind)
    else .badLength p kind (BitVec.ofNat 8 payload.length)

/-- A line that brings a break and then bytes. -/
def lineOf (bytes : List Byte) : List LineEvent := .brk :: bytes.map .byte

/-- A whole frame on a line, in either direction: its break, then its bytes (R174). -/
def Frame.line (f : Frame) : List LineEvent := lineOf f.bytes

/-- The command that a break and the bytes after it spell on a port (R175, R176). Total: a length byte above 120 and a wrong CRC byte
are a discard, bytes that stop before the CRC byte are one by the gap that follows them, and bytes after the CRC byte are ignored
until the next break. -/
def receive (p : Port) (bytes : List Byte) : Instr :=
  match bytes with
  | kind :: len :: rest =>
    if len.toNat > maxPayload then .frameDiscard p (lineOf bytes)
    else
      match rest.drop len.toNat with
      | sent :: _ =>
        let payload := rest.take len.toNat
        if sent = crc8 (kind :: len :: payload) then readFrame p kind payload else .frameDiscard p (lineOf bytes)
      | [] => .frameDiscard p (lineOf bytes ++ [.gap])
  | _ => .frameDiscard p (lineOf bytes ++ [.gap])

def writeTrain (r : TrainReading) : List Byte :=
  beBytes 1 r.status.toNat ++ beBytes 4 r.output.toNat ++ beBytes 4 r.mass.toNat

def writeTier (r : TierReading) : List Byte :=
  beBytes 4 r.heatIn.toNat ++ beBytes 4 r.heatOut.toNat

def writeMeter (m : MeterReport) : List Byte :=
  writeTrain m.trains.c1 ++ writeTrain m.trains.c2 ++ writeTrain m.trains.c3 ++ writeTrain m.trains.c4 ++
  writeTrain m.trains.e1 ++ writeTrain m.trains.e2 ++ writeTrain m.trains.e3 ++
  beBytes 2 m.pressure.toNat ++ writeTier m.tiers.t1 ++ writeTier m.tiers.t2 ++ writeTier m.tiers.t3

def writeBlock (b : BlockFields) : List Byte :=
  beBytes 2 b.reference.toNat ++ beBytes 4 b.first.toNat ++ beBytes 1 b.length.toNat ++
  beBytes 1 b.direction.toNat ++ beBytes 4 b.power.toNat ++ beBytes 4 b.reserveUp.toNat ++
  beBytes 4 b.reserveDown.toNat

/-- The port, kind and payload of the request that a command is; `none` for an event that no request carries. The start
count of DECLARE OFFLINE is ignored by the coordinator and is written 0. -/
def requestOf (i : Instr) : Option (Port × Byte × List Byte) :=
  match i with
  | .status p => some (p, 0x01#8, [])
  | .causes p => some (p, 0x02#8, [])
  | .enables p m => some (p, 0x03#8, beBytes 1 m.toNat)
  | .clearLink p => some (p, 0x04#8, [])
  | .meter r => some (.pp, 0x10#8, writeMeter r)
  | .anchor q h => some (.pp, 0x11#8,
      beBytes 2 q.toNat ++ beBytes 4 h.t1.toNat ++ beBytes 4 h.t2.toNat ++ beBytes 4 h.t3.toNat)
  | .declareAvailable t d n => some (.pp, 0x12#8, beBytes 1 t.toNat ++ beBytes 1 d.toNat ++ beBytes 1 n.toNat)
  | .declareOffline t => some (.pp, 0x12#8, beBytes 1 t.toNat ++ beBytes 1 2 ++ beBytes 1 0)
  | .release t => some (.pp, 0x13#8, beBytes 1 t.toNat)
  | .trainRead t => some (.pp, 0x14#8, beBytes 1 t.toNat)
  | .profileRead f i => some (.pp, 0x15#8, beBytes 1 f.toNat ++ beBytes 1 i.toNat)
  | .profileWrite f v => some (.pp, 0x16#8, beBytes 1 f.toNat ++ beBytes 4 v.toNat)
  | .profileStore => some (.pp, 0x17#8, [])
  | .profileLoad => some (.pp, 0x18#8, [])
  | .profileCheck => some (.pp, 0x19#8, [])
  | .enterService => some (.pp, 0x1A#8, [])
  | .enterMaintenance => some (.pp, 0x1B#8, [])
  | .clockSet i m => some (.tp, 0x20#8, beBytes 4 i.toNat ++ beBytes 4 m.toNat)
  | .clockTrim c => some (.tp, 0x21#8, beBytes 2 c.toNat)
  | .submit b => some (.tp, 0x22#8, writeBlock b)
  | .withdraw r => some (.tp, 0x23#8, beBytes 2 r.toNat)
  | .abandon => some (.tp, 0x24#8, [])
  | .checkMode c => some (.tp, 0x25#8, beBytes 1 c.toNat)
  | .bookRead n => some (.tp, 0x26#8, beBytes 1 n.toNat)
  | .position => some (.tp, 0x27#8, [])
  | .recordRead i => some (.tp, 0x28#8, beBytes 4 i.toNat)
  | .activate a => some (.gp, 0x30#8, beBytes 4 a.toNat)
  | .poll => some (.gp, 0x31#8, [])
  | _ => none

/-- The bytes a station sends for a request, with the port it sends them on. -/
def encode (i : Instr) : Option (Port × List Byte) :=
  (requestOf i).map fun r => (r.1, frameBytes r.2.1 r.2.2)

/-- No row of spec/opcode_table.json gives bits, so no word spells a command. -/
def decodeTableWord (_nbits _w : Nat) : Option Instr := none

end Sys2Proof
end

