-- ==== Sys2Proof/Machine/State.lean ====
section
/-! DEFINITION. The state of the coordinator, block by block as spec/00 section 3 lists the blocks, the two ways a step can
stop, and the state after reset. -/

namespace Sys2Proof.Machine

/-- The manual describes no event after which the coordinator stops: every fault it knows (a line error, a failed check, a
trip, the mode FAULTED) is state and is modelled as state. So no command raises a machine fault, and the type is empty. Safe. -/
inductive Fault : Type
deriving DecidableEq, Repr

/-- Why a command has no meaning in the model. -/
inductive Refusal : Type where
  /-- Raised by an arm of `exec` whose row has no meaning yet. No arm does. Safe. -/
  | notModelled (mnemonic : String)
deriving DecidableEq, Repr

/-! ### Names -/

/-- The kind of a train (R85), and of a non-zero target (R121). -/
inductive Kind where
  | compressor | turbine
deriving DecidableEq, Repr

/-- Coordinator mode (R157). -/
inductive Mode where
  | checking | maintenance | service | faulted
deriving DecidableEq, Repr

/-- Inventory status (R1). -/
inductive InventoryStatus where
  | unanchored | tracking | drifted
deriving DecidableEq, Repr

/-- Metering flag (R1). -/
inductive Metering where
  | fresh | stale
deriving DecidableEq, Repr

/-- Check mode (R64). -/
inductive CheckMode where
  | hold | notify
deriving DecidableEq, Repr

/-- Train state (R85). -/
inductive TrainState where
  | absent | offline | stopped | starting | running | stopping | tripped | locked
deriving DecidableEq, Repr

/-- Trip reason (R85). -/
inductive TripReason where
  | startTimeout | stopTimeout | tripLine | plant | uncommanded | unexpectedStop | link | coord
deriving DecidableEq, Repr

/-- Status of a train as the plant reports it (R85). -/
inductive Reported where
  | stopped | starting | running | stopping | tripped
deriving DecidableEq, Repr

/-- Trip sensitivity in force (R102). -/
inductive Sensitivity where
  | edge | edgeAndLevel
deriving DecidableEq, Repr

/-- Direction of a block (R46). -/
inductive Direction where
  | charge | discharge | idle
deriving DecidableEq, Repr

/-- Grid link state (R133). -/
inductive Link where
  | linked | lost
deriving DecidableEq, Repr

/-- Frame assembler state (R173), with the bytes taken since the break while a frame is in progress (R175). -/
inductive Assembler where
  | waiting
  | inFrame (bytes : List Byte)
deriving DecidableEq, Repr

/-- Last check result (R157). -/
inductive LastCheck where
  | none | pass | fail
deriving DecidableEq, Repr

/-- Check purpose (R157, R161). -/
inductive Purpose where
  | powerUp | entry | plain
deriving DecidableEq, Repr

/-! ### Settings -/

/-- The values of one tier (R2, R25, R114). -/
structure TierSettings where
  qCharge : Nat
  qDischarge : Nat
  lossRate : Nat
  capacity : Nat
  minHeat : Nat
  heatRate : Nat
deriving DecidableEq, Repr

/-- The values of one train (R2, R86, R114). -/
structure TrainSettings where
  installed : Bool
  maxKw : Nat
  minStable : Nat
  minRun : Nat
  minDown : Nat
  startTimeout : Nat
  stopTimeout : Nat
  cooldown : Nat
  startsPerDay : Nat
  massRate : Nat
deriving DecidableEq, Repr

/-- One point of the pressure table: mass in kg, pressure in kPa (spec/02, section 2.1). -/
structure TablePoint where
  mass : Nat
  pressure : Nat
deriving DecidableEq, Repr

/-- The values in force: what every block took from the image of the last passing check. R160 hands them out at one event
from one image, so one record holds the copies of all blocks (log entry 6): the Inventory Unit's settings (R2), the derived and
planning values (R25), L and G (R40), the Train Controller's (R86), the Dispatch Unit's (R114) and the Reserve Unit's (R134)
settings, and the port error limit (R160). -/
structure Settings where
  /-- Interval length L, minutes (R40). -/
  intervalLength : Nat
  /-- Gate closure G, intervals (R40). -/
  gateClosure : Nat
  /-- Reserve duration D_res, minutes (R25). -/
  reserveDuration : Nat
  /-- Mass margin M_margin, kg (R25). -/
  massMargin : Nat
  /-- The sixteen points (m_0, p_0) to (m_15, p_15) (R2). -/
  table : List TablePoint
  /-- r_c and r_d, kg/min (R25). -/
  rateCharge : Nat
  rateDischarge : Nat
  /-- Leakage, kg/min (R2). -/
  leakage : Nat
  driftTolerance : Nat
  driftLimit : Nat
  /-- a_c and a_d, kg/MWh (R25). -/
  airCharge : Nat
  airDischarge : Nat
  tiers : PerTier TierSettings
  trains : PerTrain TrainSettings
  rampUp : Nat
  rampDown : Nat
  /-- Changeover dwell, seconds (R114). -/
  dwell : Nat
  compressorOrder : List Train
  turbineOrder : List Train
  /-- Meter stale limit, seconds (R2). -/
  staleLimit : Nat
  /-- Permit hold, seconds (R86). -/
  permitHold : Nat
  /-- Grid link timeout and activation hold, seconds (R134). -/
  linkTimeout : Nat
  activationHold : Nat
  /-- Port error limit of the last passing check (R160, R172). -/
  portErrorLimit : Nat
  /-- Derived values of R25: M_floor, M_ceil, kg; the rate caps, kW. -/
  massFloor : Nat
  massCeil : Nat
  dischargeCap : Nat
  chargeCap : Nat
deriving DecidableEq, Repr

def TierSettings.zero : TierSettings where
  qCharge := 0
  qDischarge := 0
  lossRate := 0
  capacity := 0
  minHeat := 0
  heatRate := 0

def TrainSettings.zero : TrainSettings where
  installed := false
  maxKw := 0
  minStable := 0
  minRun := 0
  minDown := 0
  startTimeout := 0
  stopTimeout := 0
  cooldown := 0
  startsPerDay := 0
  massRate := 0

/-- What a rule would read while no check has passed since the reset. No rule reads it: every rule that needs a setting
tests first that settings are loaded, or acts on a train that only a passing check can have installed. -/
def Settings.zero : Settings where
  intervalLength := 0
  gateClosure := 0
  reserveDuration := 0
  massMargin := 0
  table := []
  rateCharge := 0
  rateDischarge := 0
  leakage := 0
  driftTolerance := 0
  driftLimit := 0
  airCharge := 0
  airDischarge := 0
  tiers := ⟨.zero, .zero, .zero⟩
  trains := ⟨.zero, .zero, .zero, .zero, .zero, .zero, .zero⟩
  rampUp := 0
  rampDown := 0
  dwell := 0
  compressorOrder := []
  turbineOrder := []
  staleLimit := 0
  permitHold := 0
  linkTimeout := 0
  activationHold := 0
  portErrorLimit := 0
  massFloor := 0
  massCeil := 0
  dischargeCap := 0
  chargeCap := 0

/-! ### The blocks -/

/-- Inventory Unit (R1). -/
structure Inventory where
  /-- Cavern air mass M, kg. -/
  mass : Nat
  /-- Tier heat H_k, MJ. -/
  heat : PerTier Nat
  status : InventoryStatus
  metering : Metering
  drift : Nat
  epoch : BitVec 32
  massBase : PerTrain (Option Word)
  heatInBase : PerTier (Option Word)
  heatOutBase : PerTier (Option Word)
  /-- Device-second count of the last METER taken. -/
  lastMeter : Nat
deriving DecidableEq, Repr

/-- The interval clock while SET (R39). -/
structure Clock where
  interval : Nat
  millis : Nat
deriving DecidableEq, Repr

/-- Time Base (R38, R39). -/
structure TimeBase where
  /-- Device-second count. -/
  count : BitVec 48
  /-- Milliseconds of the present device second that have passed: the count increases at the end of each second, and the interval
  clock is driven from the same time base (R38, R39). 1,000 is a second that has ended and whose count is still to increase. -/
  phase : Nat
  /-- The MODEL's own: the count has just increased and the Dispatch Unit's part of that tick is still to be taken. The
  other parts of the tick may come before it (R38, R116; log entry 2). -/
  tickOpen : Bool
  /-- The device second of the next loss tick, a multiple of 60 (R16, R38). -/
  nextLoss : Nat
  /-- `none` is UNSET. -/
  clock : Option Clock
deriving DecidableEq, Repr

/-- The first seven fields of a block record (R46): what the trading system sold. -/
structure Terms where
  reference : Nat
  first : Nat
  length : Nat
  direction : Direction
  power : Nat
  reserveUp : Nat
  reserveDown : Nat
deriving DecidableEq, Repr

/-- A block of the book: its terms and its AT_RISK mark. ACTIVE is derived (R50). -/
structure Block where
  terms : Terms
  atRisk : Bool
deriving DecidableEq, Repr

/-- Schedule Book (R48, R49). -/
structure Book where
  blocks : List Block
  revision : BitVec 16
deriving DecidableEq, Repr

/-- A projection job's snapshot (R67), with the settings its walk uses (R29). -/
structure Snapshot where
  mass : Nat
  heat : PerTier Nat
  status : InventoryStatus
  margin : Nat
  epoch : BitVec 32
  generation : BitVec 32
  trains : PerTrain TrainState
  clock : Clock
  book : List Terms
  settings : Settings
deriving DecidableEq, Repr

/-- The running job (R64, R66). -/
inductive Job where
  | review (snap : Snapshot)
  | check (candidate : Terms) (snap : Snapshot)
deriving DecidableEq, Repr

/-- Projection Engine (R64). -/
structure Engine where
  running : Option Job
  waiting : Option Terms
  pendingReview : Bool
  checkMode : CheckMode
  defaultApplied : Bool
deriving DecidableEq, Repr

/-- A timer of a train: its expiry time while it runs, and its expiry flag (R85, R89). -/
structure Timer where
  expiry : Option Nat
  expired : Bool
deriving DecidableEq, Repr

/-- Stopped, flag clear. -/
def Timer.stopped : Timer where
  expiry := none
  expired := false

/-- Train record (R85). -/
structure TrainRecord where
  state : TrainState
  reason : Option TripReason
  minDown : Timer
  minRun : Timer
  start : Timer
  stop : Timer
  cooldown : Timer
  releaseTaken : Bool
  /-- Start history: device-second stamps, oldest first. -/
  history : List Nat
  reported : Option Reported
  output : Nat
  /-- Trip input level as last sampled. -/
  lineHigh : Bool
  sensitivity : Sensitivity
deriving DecidableEq, Repr

/-- Train Controller (R85). -/
structure TrainController where
  records : PerTrain TrainRecord
  generation : BitVec 32
  /-- Permit hold: its expiry time while it runs (R109). -/
  permitHold : Option Nat
deriving DecidableEq, Repr

/-- Dispatch Unit (R113). -/
structure DispatchUnit where
  /-- Dispatched target D. -/
  target : Int
  /-- Previous target D_prev. -/
  previous : Int
  /-- Working target W. -/
  working : Int
  /-- Clamped target D3. -/
  clamped : Int
  headroomUp : Int
  headroomDown : Int
  derateReported : Bool
  dwell : Option Nat
  dwellKind : Option Kind
  setpoint : PerTrain Nat
  /-- Metered net output. -/
  metered : Int
deriving DecidableEq, Repr

/-- Reserve Unit (R133). -/
structure Reserve where
  /-- Granted activation g. -/
  granted : Int
  link : Link
  linkTimer : Option Nat
  holdTimer : Option Nat
  lossCount : BitVec 16
deriving DecidableEq, Repr

/-- The flags of a settlement record (R147). -/
structure RecordFlags where
  atRisk : Bool
  derated : Bool
  minLoad : Bool
  stale : Bool
  gridLost : Bool
  clamped : Bool
  discontinuity : Bool
  isPartial : Bool
deriving DecidableEq, Repr

/-- The open settlement record (R147). -/
structure OpenRecord where
  interval : Nat
  reference : Option Nat
  startMass : Option Nat
  startEpoch : BitVec 32
  scheduled : Int
  delivered : Int
  reserveUp : Int
  reserveDown : Int
  ticks : Nat
  flags : RecordFlags
deriving DecidableEq, Repr

/-- A closed settlement record (R147). -/
structure ClosedRecord where
  opened : OpenRecord
  endMass : Option Nat
  endEpoch : BitVec 32
  scheduledKwh : Int
  deliveredKwh : Int
  reserveUpKwh : Int
  reserveDownKwh : Int
deriving DecidableEq, Repr

/-- Settlement Log (R147). -/
structure SettlementLog where
  current : Option OpenRecord
  /-- Closed records, oldest first. -/
  ring : List ClosedRecord
deriving DecidableEq, Repr

/-- A profile image: fields 1 to 158 (R157). -/
abbrev Image := Vector Word 158

/-- Activity, with the purpose of a check in progress and the values that a check or a store took at its start (R157). -/
inductive Activity where
  | idle
  | verifying (purpose : Purpose) (image : Image)
  | storing (image : Image)
deriving DecidableEq, Repr

/-- Profile Store and Checker (R157). -/
structure Profile where
  working : Image
  stored : Image
  bad : Bool
  lastCheck : LastCheck
  failingField : Nat
  activity : Activity
  mode : Mode
  background : Option Nat
  siteCode : Nat
deriving DecidableEq, Repr

/-- One station port (R173). -/
structure PortState where
  assembler : Assembler
  errors : Nat
  /-- Cause flags, in the layout of R183. -/
  causes : Byte
  /-- Enables as written. -/
  enables : Byte
  resetSeen : Bool
  owed : Bool
  /-- Response and notice frames, in the order handed to the port. -/
  output : List Frame
deriving DecidableEq, Repr

/-- The three ports. -/
structure Ports where
  pp : PortState
  tp : PortState
  gp : PortState
deriving DecidableEq, Repr

/-- The coordinator. -/
structure State where
  inv : Inventory
  tb : TimeBase
  book : Book
  prj : Engine
  trc : TrainController
  du : DispatchUnit
  rsv : Reserve
  slog : SettlementLog
  prof : Profile
  ports : Ports
  /-- The values in force; `none` until a check passes after a reset. -/
  settings : Option Settings
  /-- RSTN is held low, or the supply rises and the power-on reset has not ended (R187). -/
  resetHeld : Bool
  /-- The MODEL's own: how many free values the model has drawn (log entry 4). -/
  draws : Nat
  /-- The MODEL's own: the commands that wait, first in, first out. -/
  pending : List Instr
deriving DecidableEq, Repr

/-! ### Replacing one block -/

def State.withInv (s : State) (x : Inventory) : State := { s with inv := x }
def State.withTb (s : State) (x : TimeBase) : State := { s with tb := x }
def State.withBook (s : State) (x : Book) : State := { s with book := x }
def State.withPrj (s : State) (x : Engine) : State := { s with prj := x }
def State.withTrc (s : State) (x : TrainController) : State := { s with trc := x }
def State.withDu (s : State) (x : DispatchUnit) : State := { s with du := x }
def State.withRsv (s : State) (x : Reserve) : State := { s with rsv := x }
def State.withSlog (s : State) (x : SettlementLog) : State := { s with slog := x }
def State.withProf (s : State) (x : Profile) : State := { s with prof := x }
def State.withPorts (s : State) (x : Ports) : State := { s with ports := x }
def State.withSettings (s : State) (x : Option Settings) : State := { s with settings := x }
def State.withResetHeld (s : State) (x : Bool) : State := { s with resetHeld := x }
def State.withDraws (s : State) (x : Nat) : State := { s with draws := x }
def State.withPending (s : State) (x : List Instr) : State := { s with pending := x }

/-! ### After a reset -/

/-- Inventory Unit after either reset (R3). -/
def Inventory.afterReset : Inventory where
  mass := 0
  heat := ⟨0, 0, 0⟩
  status := .unanchored
  metering := .fresh
  drift := 0
  epoch := 0#32
  massBase := ⟨none, none, none, none, none, none, none⟩
  heatInBase := ⟨none, none, none⟩
  heatOutBase := ⟨none, none, none⟩
  lastMeter := 0

/-- Time Base after either reset (R41). -/
def TimeBase.afterReset : TimeBase where
  count := 0#48
  phase := 0
  tickOpen := false
  nextLoss := 60
  clock := none

/-- Schedule Book after either reset (R63). -/
def Book.afterReset : Book where
  blocks := []
  revision := 0#16

/-- Projection Engine after either reset (R65). -/
def Engine.afterReset : Engine where
  running := none
  waiting := none
  pendingReview := false
  checkMode := .hold
  defaultApplied := false

/-- A train record after either reset, with the trip-input level sampled then (R87). -/
def TrainRecord.afterReset (lineHigh : Bool) : TrainRecord where
  state := .absent
  reason := none
  minDown := .stopped
  minRun := .stopped
  start := .stopped
  stop := .stopped
  cooldown := .stopped
  releaseTaken := false
  history := []
  reported := none
  output := 0
  lineHigh := lineHigh
  sensitivity := .edge

/-- Train Controller after either reset (R87). -/
def TrainController.afterReset (lines : PerTrain Bool) : TrainController where
  records :=
    { c1 := .afterReset lines.c1, c2 := .afterReset lines.c2, c3 := .afterReset lines.c3, c4 := .afterReset lines.c4,
      e1 := .afterReset lines.e1, e2 := .afterReset lines.e2, e3 := .afterReset lines.e3 }
  generation := 0#32
  permitHold := none

/-- Dispatch Unit after either reset (R115). -/
def DispatchUnit.afterReset : DispatchUnit where
  target := 0
  previous := 0
  working := 0
  clamped := 0
  headroomUp := 0
  headroomDown := 0
  derateReported := false
  dwell := none
  dwellKind := none
  setpoint := ⟨0, 0, 0, 0, 0, 0, 0⟩
  metered := 0

/-- Reserve Unit after either reset (R134). -/
def Reserve.afterReset : Reserve where
  granted := 0
  link := .lost
  linkTimer := none
  holdTimer := none
  lossCount := 0#16

/-- Settlement Log after either reset (R148). -/
def SettlementLog.afterReset : SettlementLog where
  current := none
  ring := []

/-- Profile Store and Checker after either reset: the POWER-UP check is in progress on the working image (R167). -/
def Profile.afterReset (working stored : Image) : Profile where
  working := working
  stored := stored
  bad := true
  lastCheck := .none
  failingField := 0
  activity := .verifying .powerUp working
  mode := .checking
  background := none
  siteCode := 0

/-- A port after either reset (R173). -/
def PortState.afterReset : PortState where
  assembler := .waiting
  errors := 0
  causes := 0#8
  enables := 0#8
  resetSeen := true
  owed := false
  output := []

def Ports.afterReset : Ports where
  pp := .afterReset
  tp := .afterReset
  gp := .afterReset

/-- The whole part after a reset of either kind: the images it leaves and the trip-input levels it samples are what differs.
The model's own draw counter and queue are kept. -/
def State.afterReset (working stored : Image) (lines : PerTrain Bool) (draws : Nat) (pending : List Instr) : State where
  inv := .afterReset
  tb := .afterReset
  book := .afterReset
  prj := .afterReset
  trc := .afterReset lines
  du := .afterReset
  rsv := .afterReset
  slog := .afterReset
  prof := .afterReset working stored
  ports := .afterReset
  settings := none
  resetHeld := false
  draws := draws
  pending := pending

/-- A nonvolatile memory that has never been written reads 4,294,967,295 in every field (R157). -/
def Image.neverWritten : Image := Vector.replicate 158 0xFFFFFFFF#32

/-- The part right after its first power-on reset: the nonvolatile memory has never been written (R157) and was copied into
the working image (R167). DESIGN CHOICE (log entry 1): the manual does not fix which image the part holds nor the trip-input
levels it samples; here every line is high. -/
def State.reset : State :=
  .afterReset .neverWritten .neverWritten ⟨true, true, true, true, true, true, true⟩ 0 []

end Sys2Proof.Machine
end

