-- ==== Sys2Proof/Machine/Arithmetic.lean ====
section
/-! DEFINITION. The formulas of spec/02 (pressure table, position energies, rounding, settlement conversion), the access to the
values kept per train, per tier and per port, and the CRC-16 of the profile (spec/09, R159). -/

namespace Sys2Proof

/-! ### Trains, tiers -/

/-- The kind of a train is fixed by its position (R85). -/
def Train.kind : Train → Machine.Kind
  | .c1 | .c2 | .c3 | .c4 => .compressor
  | .e1 | .e2 | .e3 => .turbine

/-- Every train, in the order C1 to E3. -/
def Train.all : List Train := [.c1, .c2, .c3, .c4, .e1, .e2, .e3]

/-- Every tier, in the order T1 to T3. -/
def Tier.all : List Tier := [.t1, .t2, .t3]

def PerTrain.get {α : Type} (v : PerTrain α) : Train → α
  | .c1 => v.c1
  | .c2 => v.c2
  | .c3 => v.c3
  | .c4 => v.c4
  | .e1 => v.e1
  | .e2 => v.e2
  | .e3 => v.e3

def PerTrain.set {α : Type} (v : PerTrain α) (t : Train) (x : α) : PerTrain α :=
  match t with
  | .c1 => { v with c1 := x }
  | .c2 => { v with c2 := x }
  | .c3 => { v with c3 := x }
  | .c4 => { v with c4 := x }
  | .e1 => { v with e1 := x }
  | .e2 => { v with e2 := x }
  | .e3 => { v with e3 := x }

/-- The values that `f` gives the trains. -/
def PerTrain.of {α : Type} (f : Train → α) : PerTrain α :=
  ⟨f .c1, f .c2, f .c3, f .c4, f .e1, f .e2, f .e3⟩

def PerTier.get {α : Type} (v : PerTier α) : Tier → α
  | .t1 => v.t1
  | .t2 => v.t2
  | .t3 => v.t3

def PerTier.set {α : Type} (v : PerTier α) (k : Tier) (x : α) : PerTier α :=
  match k with
  | .t1 => { v with t1 := x }
  | .t2 => { v with t2 := x }
  | .t3 => { v with t3 := x }

def PerTier.of {α : Type} (f : Tier → α) : PerTier α :=
  ⟨f .t1, f .t2, f .t3⟩

/-- Trains are numbered 1 to 7 for C1 to C4 and E1 to E3 (R178). -/
def Train.ofNumber (n : Byte) : Option Train :=
  match n.toNat with
  | 1 => some .c1
  | 2 => some .c2
  | 3 => some .c3
  | 4 => some .c4
  | 5 => some .e1
  | 6 => some .e2
  | 7 => some .e3
  | _ => none

/-- The tier number of a walk's result (R33). -/
def Tier.number : Tier → Nat
  | .t1 => 1
  | .t2 => 2
  | .t3 => 3

namespace Machine

/-- The other kind. -/
def Kind.other : Kind → Kind
  | .compressor => .turbine
  | .turbine => .compressor

/-- The trains of a kind, in the order of their numbers. -/
def Kind.trains : Kind → List Train
  | .compressor => [.c1, .c2, .c3, .c4]
  | .turbine => [.e1, .e2, .e3]

def Ports.get (v : Ports) : Port → PortState
  | .pp => v.pp
  | .tp => v.tp
  | .gp => v.gp

def Ports.set (v : Ports) (p : Port) (x : PortState) : Ports :=
  match p with
  | .pp => { v with pp := x }
  | .tp => { v with tp := x }
  | .gp => { v with gp := x }

/-! ### Rounding (spec/02, R37) -/

/-- Quotient rounded toward plus infinity, for a divisor above 0 (R37: ceil of -7.5 is -7). -/
def ceilDiv (a b : Int) : Int := -((-a) / b)

/-- `x` held within `lo` to `hi`. -/
def hold (lo hi x : Int) : Int := max lo (min hi x)

/-! ### The pressure table (R23, R24) -/

/-- Linear interpolation over neighbouring points, in the first segment whose end is at or above `x`; `key` and `val` are the
two sides of a point. Above the last point the value is the last point's. -/
def interpolate (key val : TablePoint → Nat) (x : Nat) : List TablePoint → Nat
  | [] => 0
  | [a] => val a
  | a :: b :: rest =>
    if x ≤ key b then val a + (x - key a) * (val b - val a) / (key b - key a)
    else interpolate key val x (b :: rest)

/-- A value read over a table with both ends clamped. -/
def readTable (key val : TablePoint → Nat) (table : List TablePoint) (x : Nat) : Nat :=
  match table with
  | [] => 0
  | a :: rest => if x < key a then val a else interpolate key val x (a :: rest)

/-- Forward table value, kPa, of a mass (R23). -/
def forwardTable (table : List TablePoint) (mass : Nat) : Nat :=
  readTable TablePoint.mass TablePoint.pressure table mass

/-- Inverse table value, kg, of a pressure (R24). -/
def inverseTable (table : List TablePoint) (pressure : Nat) : Nat :=
  readTable TablePoint.pressure TablePoint.mass table pressure

/-- p_0 and p_15 of the table in force, and m_15. -/
def Settings.firstPressure (c : Settings) : Nat := (c.table.head?.map TablePoint.pressure).getD 0
def Settings.lastPressure (c : Settings) : Nat := (c.table.getLast?.map TablePoint.pressure).getD 0
def Settings.lastMass (c : Settings) : Nat := (c.table.getLast?.map TablePoint.mass).getD 0

/-! ### Position energies (R26 to R28) -/

/-- Which term gave a position energy (R27, R28). -/
inductive PositionLimit where
  | none | air | t1 | t2 | t3
deriving DecidableEq, Repr

/-- The smallest term; of equal ones, the first (R27). -/
def leastTerm : Nat × PositionLimit → List (Nat × PositionLimit) → Nat × PositionLimit
  | best, [] => best
  | best, x :: rest => leastTerm (if x.1 < best.1 then x else best) rest

def PositionLimit.ofTier : Tier → PositionLimit
  | .t1 => .t1
  | .t2 => .t2
  | .t3 => .t3

/-- The terms of the tiers whose factor `q` is above 0, for the heat `h` that each may give or take (R27, R28). -/
def heatTerms (q h : Tier → Nat) (air : Nat) : List (Nat × PositionLimit) :=
  Tier.all.filterMap fun k =>
    if 0 < q k then some (h k * 1000 / q k * 1000 / air, .ofTier k) else none

/-- Discharge position E_d with its limit (R27). -/
def dischargePosition (c : Settings) (margin mass : Nat) (heat : PerTier Nat) : Nat × PositionLimit :=
  leastTerm ((mass - c.massFloor - margin * c.massMargin) * 1000 / c.airDischarge, .air)
    (heatTerms (fun k => (c.tiers.get k).qDischarge) (fun k => heat.get k) c.airDischarge)

/-- Charge position E_c with its limit (R28). -/
def chargePosition (c : Settings) (margin mass : Nat) (heat : PerTier Nat) : Nat × PositionLimit :=
  leastTerm ((c.massCeil - margin * c.massMargin - mass) * 1000 / c.airCharge, .air)
    (heatTerms (fun k => (c.tiers.get k).qCharge) (fun k => (c.tiers.get k).capacity - heat.get k) c.airCharge)

/-! ### Settlement conversion (R36) -/

/-- kW·s to kWh, truncated toward zero (R36). -/
def toKwh (x : Int) : Int := x.tdiv 3600

/-! ### CRC-16 of the profile (R159) -/

/-- One shift of the register: left by one bit, then the exclusive-or with 0x1021 where a 1 was dropped (R159). -/
def crc16Shift (r : Half) : Half :=
  if r.msb then (r <<< 1) ^^^ 0x1021#16 else r <<< 1

/-- One byte taken into the upper eight bits of the register (R159). -/
def crc16Byte (r : Half) (b : Byte) : Half :=
  let x := r ^^^ (b.setWidth 16 <<< 8)
  crc16Shift (crc16Shift (crc16Shift (crc16Shift (crc16Shift (crc16Shift (crc16Shift (crc16Shift x)))))))

/-- The register after fields, each as four bytes, most significant first (R159). -/
def crc16Fields (r : Half) (fields : List Word) : Half :=
  fields.foldl (fun r w => (beBytes 4 w.toNat).foldl crc16Byte r) r

/-- The check word of an image: the CRC-16 of fields 1 to 157, from 0xFFFF (R159). -/
def crc16 (image : Image) : Half :=
  crc16Fields 0xFFFF#16 (image.toList.take 157)

end Machine

end Sys2Proof
end

