-- ==== Sys2Proof/Machine/Projection.lean ====
section
/-! DEFINITION. The projection: one walk of the cavern and the heat store over the book (spec/02, R29 to R34; spec/04, R66, R74). -/

namespace Sys2Proof.Machine

/-- The last interval of a block (R46). -/
def Terms.last (b : Terms) : Nat := b.first + b.length - 1

/-- Whether a block covers an interval (R29, R50). -/
def Terms.covers (b : Terms) (j : Nat) : Bool := decide (b.first ≤ j) && decide (j ≤ b.last)

/-- An interval that no block covers is walked as IDLE with P and both reserves 0 (R29, R47). -/
def Terms.uncovered : Terms where
  reference := 0
  first := 0
  length := 0
  direction := .idle
  power := 0
  reserveUp := 0
  reserveDown := 0

/-- The projected values of a walk (spec/02, section 2.4): signed, not clamped. -/
structure Projected where
  mass : Int
  heat : PerTier Int
deriving DecidableEq, Repr

/-- The reason a check fails (R33, R79). -/
inductive CheckReason where
  | floor | ceiling | heatShort | heatFull | power | rate
deriving DecidableEq, Repr

/-- The first failing interval of a walk, with its reason and tier number (R33). -/
structure Failure where
  interval : Nat
  reason : CheckReason
  tier : Nat
deriving DecidableEq, Repr

/-- The horizon: 192 intervals from the current one (R53). -/
def horizonLength : Nat := 192

/-- Air moved in an interval of `t` minutes, kg: gained when charging, rounded down; consumed when discharging, rounded up (R30). -/
def airMoved (c : Settings) (b : Terms) (t : Nat) : Int :=
  match b.direction with
  | .charge => ((b.power * t * c.airCharge : Nat) : Int) / 60000
  | .discharge => ceilDiv ((b.power * t * c.airDischarge : Nat) : Int) 60000
  | .idle => 0

/-- The flow of an interval (R30). -/
def flowStep (c : Settings) (b : Terms) (dm : Int) (p : Projected) : Projected :=
  match b.direction with
  | .charge =>
    { mass := p.mass + dm, heat := PerTier.of fun k => p.heat.get k + dm * (c.tiers.get k).qCharge / 1000 }
  | .discharge =>
    { mass := p.mass - dm,
      heat := PerTier.of fun k => p.heat.get k - ceilDiv (dm * (c.tiers.get k).qDischarge) 1000 }
  | .idle => p

/-- The losses of an interval, on the values the flow left (R31). -/
def lossStep (c : Settings) (t : Nat) (p : Projected) : Projected where
  mass := p.mass - c.leakage * t
  heat := PerTier.of fun k =>
    if 0 < p.heat.get k then p.heat.get k - ceilDiv (p.heat.get k * (c.tiers.get k).lossRate * t) 1000000
    else p.heat.get k

/-- Air that upward reserve at full activation would take out, kg (R32). -/
def needUp (c : Settings) (b : Terms) : Int :=
  ceilDiv ((b.reserveUp * c.reserveDuration * c.airDischarge : Nat) : Int) 60000

/-- Air that downward reserve at full activation would put in, kg (R32). -/
def needDown (c : Settings) (b : Terms) : Int :=
  ceilDiv ((b.reserveDown * c.reserveDuration * c.airCharge : Nat) : Int) 60000

/-- Heat that reheating the upward need would draw from a tier, MJ (R32). -/
def heatNeed (c : Settings) (b : Terms) (k : Tier) : Int :=
  ceilDiv (needUp c b * (c.tiers.get k).qDischarge) 1000

/-- What a walk takes from its snapshot besides the book: the settings, the margin factor and the capacities (R29, R34). -/
structure WalkBasis where
  settings : Settings
  margin : Nat
  turbines : Nat
  compressors : Nat
deriving DecidableEq, Repr

def floorOk (w : WalkBasis) (b : Terms) (p : Projected) : Bool :=
  decide ((w.settings.massFloor : Int) + w.margin * w.settings.massMargin + needUp w.settings b ≤ p.mass)

def ceilingOk (w : WalkBasis) (b : Terms) (p : Projected) : Bool :=
  decide (p.mass ≤ (w.settings.massCeil : Int) - w.margin * w.settings.massMargin - needDown w.settings b)

def heatShortOk (w : WalkBasis) (b : Terms) (p : Projected) (k : Tier) : Bool :=
  decide (heatNeed w.settings b k ≤ p.heat.get k)

def heatFullOk (w : WalkBasis) (p : Projected) (k : Tier) : Bool :=
  decide (p.heat.get k ≤ ((w.settings.tiers.get k).capacity : Int))

def powerOk (w : WalkBasis) (b : Terms) : Bool :=
  match b.direction with
  | .discharge => decide (b.power + b.reserveUp ≤ w.turbines)
  | .charge => decide (b.power + b.reserveDown ≤ w.compressors)
  | .idle => true

def rateOk (w : WalkBasis) (b : Terms) (t : Nat) (dm : Int) : Bool :=
  match b.direction with
  | .charge => decide (dm ≤ w.settings.rateCharge * t)
  | .discharge => decide (dm ≤ w.settings.rateDischarge * t)
  | .idle => true

/-- The six checks of an interval in their order; the first that fails, with its tier number (R33). -/
def intervalChecks (w : WalkBasis) (b : Terms) (t : Nat) (dm : Int) (p : Projected) : Option (CheckReason × Nat) :=
  if !floorOk w b p then some (.floor, 0)
  else if !ceilingOk w b p then some (.ceiling, 0)
  else
    match Tier.all.find? fun k => !heatShortOk w b p k with
    | some k => some (.heatShort, k.number)
    | none =>
      match Tier.all.find? fun k => !heatFullOk w p k with
      | some k => some (.heatFull, k.number)
      | none =>
        if !powerOk w b then some (.power, 0)
        else if !rateOk w b t dm then some (.rate, 0)
        else none

/-- The block that covers an interval (R29). -/
def coverOf (book : List Terms) (j : Nat) : Terms :=
  (book.find? fun b => b.covers j).getD .uncovered

/-- The projected values at the end of an interval (R30, R31). -/
def walkInterval (c : Settings) (b : Terms) (t : Nat) (p : Projected) : Projected :=
  lossStep c t (flowStep c b (airMoved c b t) p)

/-- A walk over `n` intervals from `j`, the first lasting `t` minutes and every later one L; it ends at the first failing
interval (R29, R33). -/
def walkFrom (w : WalkBasis) (book : List Terms) : Nat → Nat → Nat → Projected → Option Failure
  | 0, _, _, _ => none
  | n + 1, j, t, p =>
    let b := coverOf book j
    let after := walkInterval w.settings b t p
    match intervalChecks w b t (airMoved w.settings b t) after with
    | some (reason, tier) => some { interval := j, reason := reason, tier := tier }
    | none => walkFrom w book n (j + 1) w.settings.intervalLength after

/-- Duration of the first interval walked: the minutes that remain of the current interval, rounded up (R29). -/
def remainingMinutes (length millis : Nat) : Nat :=
  (length * 60000 - millis + 59999) / 60000

/-- Whether a train state counts toward E_avail and C_avail (R34). -/
def countsAvailable : TrainState → Bool
  | .stopped | .starting | .running | .stopping => true
  | .absent | .offline | .tripped | .locked => false

/-- E_avail or C_avail: the max kW of the installed trains of a kind that count (R34). -/
def availableCapacity (c : Settings) (trains : PerTrain TrainState) (kind : Kind) : Nat :=
  ((kind.trains.filter fun t => (c.trains.get t).installed && countsAvailable (trains.get t)).map
    fun t => (c.trains.get t).maxKw).sum

def Snapshot.basis (s : Snapshot) : WalkBasis where
  settings := s.settings
  margin := s.margin
  turbines := availableCapacity s.settings s.trains .turbine
  compressors := availableCapacity s.settings s.trains .compressor

/-- The whole walk of a job over the horizon: the snapshot's book, and for a check its candidate (R66). -/
def Snapshot.walk (s : Snapshot) (candidate : Option Terms) : Option Failure :=
  walkFrom s.basis (s.book ++ candidate.toList) horizonLength s.clock.interval
    (remainingMinutes s.settings.intervalLength s.clock.millis)
    { mass := s.mass, heat := PerTier.of fun k => (s.heat.get k : Int) }

/-- Whether a job whose first failing interval is `f` marks a block: its last interval is at or after `f` (R74). -/
def marksBlock (f : Option Failure) (b : Terms) : Bool :=
  match f with
  | some x => decide (x.interval ≤ b.last)
  | none => false

/-- The book with every mark set or cleared from a job's walk (R74). -/
def markBook (f : Option Failure) (blocks : List Block) : List Block :=
  blocks.map fun b => { b with atRisk := marksBlock f b.terms }

end Sys2Proof.Machine
end

