-- ==== Sys2Proof/Machine/Operands.lean ====
section
/-! DEFINITION. Every operand form of the requests and every field form of the responses (spec/10, R178, R180, sections 10.8 and
10.9): codes read from a frame, and values written into one. -/

namespace Sys2Proof.Machine

/-! ### Codes read from requests -/

/-- Reported status codes of a METER (section 10.9). -/
def Reported.ofCode (code : Byte) : Option Reported :=
  match code.toNat with
  | 1 => some .stopped
  | 2 => some .starting
  | 3 => some .running
  | 4 => some .stopping
  | 5 => some .tripped
  | _ => none

/-- Direction codes of a SUBMIT (section 10.9). -/
def Direction.ofCode (code : Byte) : Option Direction :=
  match code.toNat with
  | 1 => some .charge
  | 2 => some .discharge
  | 3 => some .idle
  | _ => none

/-- Check mode codes (section 10.8). -/
def CheckMode.ofCode (code : Byte) : Option CheckMode :=
  match code.toNat with
  | 0 => some .hold
  | 1 => some .notify
  | _ => none

/-- The image a PROFILE READ names (section 10.8). -/
inductive ImageName where
  | working | stored
deriving DecidableEq, Repr

def ImageName.ofCode (code : Byte) : Option ImageName :=
  match code.toNat with
  | 1 => some .working
  | 2 => some .stored
  | _ => none

/-- The last interval the numbering reaches (R39). -/
def lastInterval : Nat := 4000000000

/-- The largest power or reserve of a block, kW (R46). -/
def maxBlockPower : Nat := 400000

/-- Whether direction, power and reserves agree (R47). -/
def fieldsAgree (b : Terms) : Bool :=
  match b.direction with
  | .idle => decide (b.power = 0) && decide (b.reserveUp = 0) && decide (b.reserveDown = 0)
  | .charge => decide (1 ≤ b.power) && decide (b.reserveUp ≤ b.power)
  | .discharge => decide (1 ≤ b.power) && decide (b.reserveDown ≤ b.power)

/-- Whether a block's fields lie in their ranges (R46). -/
def fieldsInRange (b : Terms) : Bool :=
  decide (1 ≤ b.reference) && decide (1 ≤ b.first) && decide (b.first ≤ lastInterval) &&
  decide (1 ≤ b.length) && decide (b.length ≤ 96) && decide (b.power ≤ maxBlockPower) &&
  decide (b.reserveUp ≤ maxBlockPower) && decide (b.reserveDown ≤ maxBlockPower) && decide (b.last ≤ lastInterval)

/-- The candidate a SUBMIT carries, where its fields pass the field test (R46, R47, R54 step 5). -/
def Terms.ofFields (f : BlockFields) : Option Terms :=
  match Direction.ofCode f.direction with
  | none => none
  | some d =>
    let b : Terms :=
      { reference := f.reference.toNat, first := f.first.toNat, length := f.length.toNat, direction := d,
        power := f.power.toNat, reserveUp := f.reserveUp.toNat, reserveDown := f.reserveDown.toNat }
    if fieldsInRange b && fieldsAgree b then some b else none

/-! ### Result codes -/

/-- The results of R180. -/
inductive Result where
  | ok | started | busy | badLength | badField | unknownKind | wrongMode | clockUnset | clockLocked | notFound
  | notLocked | trainActive | bookFull | duplicateRef | gateClosed | horizon | overlap | notAnchored | stale | changed
  | abandoned | noCheck | bookNotEmpty | accepted | refused | endOfBook
deriving DecidableEq, Repr

/-- The result codes of R180. -/
def Result.code : Result → Byte
  | .ok => 0x00#8
  | .started => 0x01#8
  | .busy => 0x02#8
  | .badLength => 0x03#8
  | .badField => 0x04#8
  | .unknownKind => 0x05#8
  | .wrongMode => 0x06#8
  | .clockUnset => 0x07#8
  | .clockLocked => 0x08#8
  | .notFound => 0x09#8
  | .notLocked => 0x0A#8
  | .trainActive => 0x0B#8
  | .bookFull => 0x0C#8
  | .duplicateRef => 0x0D#8
  | .gateClosed => 0x0E#8
  | .horizon => 0x0F#8
  | .overlap => 0x10#8
  | .notAnchored => 0x11#8
  | .stale => 0x12#8
  | .changed => 0x13#8
  | .abandoned => 0x14#8
  | .noCheck => 0x15#8
  | .bookNotEmpty => 0x16#8
  | .accepted => 0x17#8
  | .refused => 0x18#8
  | .endOfBook => 0x19#8

/-! ### Fields written into responses (R178) -/

def u8 (n : Nat) : List Byte := beBytes 1 n
def u16 (n : Nat) : List Byte := beBytes 2 n
def u32 (n : Nat) : List Byte := beBytes 4 n
def u48 (n : Nat) : List Byte := beBytes 6 n

/-- Signed fields are in two's complement (R178). -/
def s16 (x : Int) : List Byte := beBytes 2 (BitVec.ofInt 16 x).toNat
def s32 (x : Int) : List Byte := beBytes 4 (BitVec.ofInt 32 x).toNat
def s64 (x : Int) : List Byte := beBytes 8 (BitVec.ofInt 64 x).toNat

/-- A yes-or-no item (R178). -/
def yesNo (b : Bool) : List Byte := [if b then 1#8 else 0#8]

/-- The all-ones value of a field of `k` bytes, for an absent value of a field whose range includes 0 (R178). -/
def absentField (k : Nat) : List Byte := List.replicate k 0xFF#8

/-- A value of a field of `k` bytes whose range includes 0, or absent (R178). -/
def orAbsent (k : Nat) : Option Nat → List Byte
  | some n => beBytes k n
  | none => absentField k

/-- A value of a field of `k` bytes whose range excludes 0, or absent (R178). -/
def orZero (k : Nat) : Option Nat → List Byte
  | some n => beBytes k n
  | none => beBytes k 0

/-- The mode code of the status byte (R181), also the code of a mode field (R178). -/
def Mode.code : Mode → Nat
  | .checking => 0
  | .maintenance => 1
  | .service => 2
  | .faulted => 3

/-- Train states by their position in R85 (R178). -/
def TrainState.code : TrainState → Nat
  | .absent => 1
  | .offline => 2
  | .stopped => 3
  | .starting => 4
  | .running => 5
  | .stopping => 6
  | .tripped => 7
  | .locked => 8

/-- Trip reasons by their position in R85 (R178); absent is sent as 0, since the range excludes it. -/
def TripReason.code : TripReason → Nat
  | .startTimeout => 1
  | .stopTimeout => 2
  | .tripLine => 3
  | .plant => 4
  | .uncommanded => 5
  | .unexpectedStop => 6
  | .link => 7
  | .coord => 8

def Reported.code : Reported → Nat
  | .stopped => 1
  | .starting => 2
  | .running => 3
  | .stopping => 4
  | .tripped => 5

def Direction.code : Direction → Nat
  | .charge => 1
  | .discharge => 2
  | .idle => 3

/-- Trip sensitivity has codes in Site Profile and Coordinator Modes (R158, R178). -/
def Sensitivity.code : Sensitivity → Nat
  | .edge => 0
  | .edgeAndLevel => 1

/-- Kinds by their position where R85 gives them (R178). -/
def Kind.code : Kind → Nat
  | .compressor => 1
  | .turbine => 2

def CheckMode.code : CheckMode → Nat
  | .hold => 0
  | .notify => 1

/-- LINKED, LOST by their position in R133 (R178). -/
def Link.code : Link → Nat
  | .linked => 1
  | .lost => 2

/-- The last check result: NONE is sent as 0 (R178). -/
def LastCheck.code : LastCheck → Nat
  | .none => 0
  | .pass => 1
  | .fail => 2

/-- The activity by its position in R157 (R178). -/
def Activity.code : Activity → Nat
  | .idle => 1
  | .verifying _ _ => 2
  | .storing _ => 3

/-- Clock state by its position in R39: UNSET, SET (R178). -/
def clockStateCode (clock : Option Clock) : Nat := if clock.isSome then 2 else 1

/-- Position limits: NONE is sent as 0, AIR, T1, T2, T3 by their position in R27 (R178). -/
def PositionLimit.code : PositionLimit → Nat
  | .none => 0
  | .air => 1
  | .t1 => 2
  | .t2 => 3
  | .t3 => 4

/-- Check reasons (section 10.9); NONE is 0. -/
def CheckReason.code : CheckReason → Nat
  | .floor => 1
  | .ceiling => 2
  | .heatShort => 3
  | .heatFull => 4
  | .power => 5
  | .rate => 6

def ImageName.code : ImageName → Nat
  | .working => 1
  | .stored => 2

/-- The first seven fields of a block, in the order of R46. -/
def Terms.bytes (b : Terms) : List Byte :=
  u16 b.reference ++ u32 b.first ++ u8 b.length ++ u8 b.direction.code ++ u32 b.power ++ u32 b.reserveUp ++
  u32 b.reserveDown

/-- The flags of a settlement record (R178). -/
def RecordFlags.byte (f : RecordFlags) : Nat :=
  f.atRisk.toNat + f.derated.toNat * 2 + f.minLoad.toNat * 4 + f.stale.toNat * 8 + f.gridLost.toNat * 16 +
  f.clamped.toNat * 32 + f.discontinuity.toNat * 64 + f.isPartial.toNat * 128

/-- Every field of a closed record, in the order of R147. -/
def ClosedRecord.bytes (r : ClosedRecord) : List Byte :=
  u32 r.opened.interval ++ orZero 2 r.opened.reference ++ orAbsent 4 r.opened.startMass ++
  u32 r.opened.startEpoch.toNat ++ s64 r.opened.scheduled ++ s64 r.opened.delivered ++ s64 r.opened.reserveUp ++
  s64 r.opened.reserveDown ++ u16 r.opened.ticks ++ u8 r.opened.flags.byte ++ orAbsent 4 r.endMass ++
  u32 r.endEpoch.toNat ++ s32 r.scheduledKwh ++ s32 r.deliveredKwh ++ s32 r.reserveUpKwh ++ s32 r.reserveDownKwh

/-- A timer in a TRAIN READ response: whether it runs, the seconds left if it does, its expiry flag (R112). -/
def Timer.bytes (now : Nat) (t : Timer) : List Byte :=
  yesNo t.expiry.isSome ++ orAbsent 4 (t.expiry.map (· - now)) ++ yesNo t.expired

/-- A hold in a TRAIN READ response: whether it runs, and the seconds left on it (R112). -/
def holdBytes (now : Nat) (h : Option Nat) : List Byte :=
  yesNo h.isSome ++ orAbsent 4 (h.map (· - now))

end Sys2Proof.Machine
end

