-- ==== Sys2Proof/Machine/Flags.lean ====
section
/-! DEFINITION. Every flag the manual computes: cause flags and their bits (R183), enables in force (R184), the status byte
(R181), the output lines (R108, R172, R185), and the flags of the open settlement record (R150). -/

namespace Sys2Proof.Machine

/-- The causes of R183. -/
inductive Cause where
  | trip | releaseReady | drift | clamp | atRisk | gridLost | profile | linkFault
  | checkDone | inventory | capacity | record | mode | band | derated
deriving DecidableEq, Repr

/-- The bit of a cause on a port; no bit where the port does not have the cause (R183). -/
def Cause.mask (p : Port) (c : Cause) : Byte :=
  match p, c with
  | .pp, .trip => 0x01#8
  | .pp, .releaseReady => 0x02#8
  | .pp, .drift => 0x04#8
  | .pp, .clamp => 0x08#8
  | .pp, .atRisk => 0x10#8
  | .pp, .gridLost => 0x20#8
  | .pp, .profile => 0x40#8
  | .pp, .linkFault => 0x80#8
  | .tp, .checkDone => 0x01#8
  | .tp, .atRisk => 0x02#8
  | .tp, .inventory => 0x04#8
  | .tp, .capacity => 0x08#8
  | .tp, .gridLost => 0x10#8
  | .tp, .record => 0x20#8
  | .tp, .mode => 0x40#8
  | .tp, .linkFault => 0x80#8
  | .gp, .band => 0x01#8
  | .gp, .derated => 0x02#8
  | .gp, .mode => 0x04#8
  | .gp, .linkFault => 0x08#8
  | _, _ => 0x00#8

/-- The bits for which a port has a cause (R183). -/
def causeBits : Port → Byte
  | .pp => 0xFF#8
  | .tp => 0xFF#8
  | .gp => 0x0F#8

def State.port (s : State) (p : Port) : PortState := s.ports.get p

def State.setPort (s : State) (p : Port) (x : PortState) : State := s.withPorts (s.ports.set p x)

/-- A cause is raised on a port: its flag is set, and stays set where it was (R184). -/
def State.raise (s : State) (p : Port) (c : Cause) : State :=
  s.setPort p { s.port p with causes := (s.port p).causes ||| c.mask p }

/-- The enables in force: in NOTIFY mode the CHECK_DONE enable of the trade port is on whatever was written (R184). -/
def State.enablesInForce (s : State) (p : Port) : Byte :=
  if p = .tp ∧ s.prj.checkMode = .notify then (s.port p).enables ||| Cause.mask .tp .checkDone else (s.port p).enables

/-- ATTN is driven low: some cause flag is set with its enable in force on (R185). -/
def State.attention (s : State) (p : Port) : Bool :=
  decide ((s.port p).causes &&& s.enablesInForce p ≠ 0#8)

/-- The anchored statuses (R1). -/
def InventoryStatus.anchored : InventoryStatus → Bool
  | .unanchored => false
  | .tracking | .drifted => true

/-- Margin factor g_m (R26); 0, as POSITION reports it, while it has no value (R28). -/
def InventoryStatus.margin : InventoryStatus → Nat
  | .unanchored => 0
  | .tracking => 1
  | .drifted => 2

/-- A projection job runs or a check waits (R64). -/
def State.engineBusy (s : State) : Bool := s.prj.running.isSome || s.prj.waiting.isSome

/-- The status byte of a frame built now on a port (R181). -/
def State.statusByte (s : State) (p : Port) : Byte :=
  BitVec.ofNat 8
    ((s.port p).resetSeen.toNat * 128 + (s.attention p).toNat * 64 + s.prof.mode.code * 16 +
      s.inv.status.anchored.toNat * 8 + (decide (s.inv.status = .drifted)).toNat * 4 +
      (decide (s.inv.metering = .stale)).toNat * 2 + s.engineBusy.toNat)

/-- The active states (R88). -/
def TrainState.active : TrainState → Bool
  | .starting | .running | .stopping => true
  | .absent | .offline | .stopped | .tripped | .locked => false

/-- The unavailable set (R88). -/
def TrainState.unavailable : TrainState → Bool
  | .absent | .offline | .tripped | .locked => true
  | .stopped | .starting | .running | .stopping => false

def State.train (s : State) (t : Train) : TrainRecord := s.trc.records.get t

/-- The run-permit output of a train: asserted only in SERVICE while the train is active (R108). -/
def State.permit (s : State) (t : Train) : Bool :=
  decide (s.prof.mode = .service) && (s.train t).state.active

/-- The FAULT output is asserted (R172). -/
def State.faultLine (s : State) : Bool := decide (s.prof.mode = .faulted) || s.prof.bad

/-- What a transmit line does: it idles high, or it sends what its queue holds, a break and then the bytes of each frame (R174, R179). -/
inductive TxLine where
  | idleHigh
  | sending (line : List LineEvent)
deriving DecidableEq, Repr

/-- The levels of the output pins (section 10.10): permits high while asserted, ATTN and FAULT low while asserted. -/
structure Pins where
  permitHigh : PerTrain Bool
  attnLow : Port → Bool
  tx : Port → TxLine
  faultLow : Bool

/-- What an output queue puts on its line: its frames one after another, in the order they were handed to it, each preceded by a break
(R174, R179). -/
def sentLine (output : List Frame) : List LineEvent := output.flatMap Frame.line

/-- The transmit line of a port outside a reset (R179). -/
def State.txLine (s : State) (p : Port) : TxLine :=
  if (s.port p).output = [] then .idleHigh else .sending (sentLine (s.port p).output)

/-- The output pins: what the blocks drive (R108, R172, R179, R185), or while a reset is held, every permit low, every ATTN
released, every transmit line idle high and FAULT low (R187). -/
def State.pins (s : State) : Pins :=
  if s.resetHeld then
    { permitHigh := PerTrain.of fun _ => false, attnLow := fun _ => false, tx := fun _ => .idleHigh, faultLow := true }
  else
    { permitHigh := PerTrain.of s.permit, attnLow := s.attention, tx := s.txLine, faultLow := s.faultLine }

/-- The error limit in use on every port (R172): 16 while profile-bad is set. -/
def State.errorLimit (s : State) : Nat :=
  if s.prof.bad then 16
  else
    match s.settings with
    | some c => c.portErrorLimit
    | none => 16

/-- A flag is set in the open settlement record; an event while no record is open sets nothing (R150). -/
def State.markRecord (s : State) (f : RecordFlags → RecordFlags) : State :=
  match s.slog.current with
  | none => s
  | some r => s.withSlog { s.slog with current := some { r with flags := f r.flags } }

def RecordFlags.setAtRisk (f : RecordFlags) : RecordFlags := { f with atRisk := true }
def RecordFlags.setDerated (f : RecordFlags) : RecordFlags := { f with derated := true }
def RecordFlags.setMinLoad (f : RecordFlags) : RecordFlags := { f with minLoad := true }
def RecordFlags.setStale (f : RecordFlags) : RecordFlags := { f with stale := true }
def RecordFlags.setGridLost (f : RecordFlags) : RecordFlags := { f with gridLost := true }
def RecordFlags.setClamped (f : RecordFlags) : RecordFlags := { f with clamped := true }
def RecordFlags.setDiscontinuity (f : RecordFlags) : RecordFlags := { f with discontinuity := true }

end Sys2Proof.Machine
end

