-- ==== Sys2Proof/Machine/Ops.lean ====
section
/-! DEFINITION. The operations that commands share: device time and timers, taking a frame and answering it, the grid link, and
the sharing of the Projection Engine (spec/03, 04, 07 and 10). -/

namespace Sys2Proof.Machine

/-! ### Device time (R38, R89) -/

/-- The device-second count now. -/
def State.now (s : State) : Nat := s.tb.count.toNat

/-- The values in force; before a passing check no rule reads them (`Settings.zero`). -/
def State.cfg (s : State) : Settings := s.settings.getD .zero

/-- A timer loaded with duration `n` now (R89). -/
def Timer.load (n now : Nat) : Timer where
  expiry := some (now + n)
  expired := false

/-- A timer that has run out: it stops and its flag is set (R89). -/
def Timer.ranOut : Timer where
  expiry := none
  expired := true

/-! ### Line errors (R182) -/

/-- One counted error: the count stays at 255 once it reaches it; LINK_FAULT is raised if the count is then at or above the
limit in use (R182). The MODEL's choice (log entry 34, DEDUCED): the comparison is made at every counted error, also at one
counted while the count stands at 255 and does not increase. -/
def State.countError (s : State) (p : Port) : State :=
  let n := min 255 ((s.port p).errors + 1)
  let s := s.setPort p { s.port p with errors := n }
  if s.errorLimit ≤ n then s.raise p .linkFault else s

/-! ### The frame assembler (R175) -/

def State.setAssembler (s : State) (p : Port) (a : Assembler) : State := s.setPort p { s.port p with assembler := a }

/-- The frame in progress is discarded and counted once (R175, R182); the assembler goes to `a`. -/
def State.discard (s : State) (p : Port) (a : Assembler) : State := (s.setAssembler p a).countError p

/-- A break begins a frame; a frame in progress is discarded and counted (R175). -/
def State.takeBreak (s : State) (p : Port) : State :=
  match (s.port p).assembler with
  | .waiting => s.setAssembler p (.inFrame [])
  | .inFrame _ => s.discard p (.inFrame [])

/-! ### Responses and notices (R179 to R181) -/

/-- The kind byte of a CHECK RESULT notice and of an UNKNOWN_KIND response (R174). -/
def noticeKind : Byte := 0xC0#8
def unknownResponseKind : Byte := 0xFF#8

/-- A response frame is built from the state as it stands, with its length and CRC bytes (R174, R176), and handed to the output queue
(R179, R180); RESET_SEEN clears when the
first response after a reset has been built (R181). -/
def State.answer (s : State) (p : Port) (frameKind : Byte) (result : Result) (fields : List Byte) : State :=
  s.setPort p
    { s.port p with
      output := (s.port p).output ++ [Frame.make frameKind (s.statusByte p :: result.code :: fields)]
      resetSeen := false }

/-- The response to a request: its kind is the request kind plus 0x80 (R174). -/
def State.respond (s : State) (p : Port) (requestKind : Byte) (result : Result) (fields : List Byte) : State :=
  s.answer p (requestKind + 0x80#8) result fields

/-- A notice joins the trade port's output queue; it creates no owed response and does not clear RESET_SEEN (R179, R181). -/
def State.notice (s : State) (result : Result) (fields : List Byte) : State :=
  s.setPort .tp
    { s.port .tp with
      output := (s.port .tp).output ++ [Frame.make noticeKind (s.statusByte .tp :: result.code :: fields)] }

/-! ### The grid link (R141 to R144) -/

/-- The action on the grid link of a frame the grid port takes: a LOST link is restored and its hold stops (R144), and the link
timer is loaded if the settings are loaded (R141). -/
def State.gridFrame (s : State) : State :=
  let r := s.rsv
  let r := if r.link = .lost then { r with link := .linked, holdTimer := none } else r
  match s.settings with
  | none => s.withRsv r
  | some c => s.withRsv { r with linkTimer := some (s.now + c.linkTimeout) }

/-- The grid link is lost (R142). -/
def State.loseLink (s : State) : State :=
  let held := 0 < s.cfg.activationHold
  let s := s.withRsv
    { s.rsv with
      link := .lost
      linkTimer := none
      lossCount := s.rsv.lossCount + 1
      holdTimer := if held then some (s.now + s.cfg.activationHold) else none
      granted := if held then s.rsv.granted else 0 }
  ((s.raise .pp .gridLost).raise .tp .gridLost).markRecord .setGridLost

/-- The activation hold runs out: it stops and g is set to 0 (R143). -/
def State.endActivationHold (s : State) : State := s.withRsv { s.rsv with holdTimer := none, granted := 0 }

/-! ### Taking a frame (R177) -/

/-- A whole good frame on a port, from its break, which discards a frame in progress, to its CRC byte, which returns the assembler to
WAITING (R175; log entry 17). Where a response is owed it is discarded and counted (R177 step 1); otherwise it is taken, a response
becomes owed, and on the grid port it acts on the link before `act` (R141). -/
def State.takeFrame (p : Port) (act : State → State) (s : State) : State :=
  let s := (s.takeBreak p).setAssembler p .waiting
  if (s.port p).owed then s.countError p
  else
    let s := s.setPort p { s.port p with owed := true }
    act (if p = .gp then s.gridFrame else s)

/-! ### The Projection Engine (spec/04) -/

/-- The current interval as responses report it: 0 while the clock is UNSET (R39). -/
def State.currentInterval (s : State) : Nat := (s.tb.clock.map Clock.interval).getD 0

/-- The snapshot of a job that starts now (R67). -/
def State.snapshot (s : State) (clock : Clock) : Snapshot where
  mass := s.inv.mass
  heat := s.inv.heat
  status := s.inv.status
  margin := s.inv.status.margin
  epoch := s.inv.epoch
  generation := s.trc.generation
  trains := PerTrain.of fun t => (s.train t).state
  clock := clock
  book := s.book.blocks.map Block.terms
  settings := s.cfg

/-- No job is running, the inventory is anchored and the clock is SET (R68, R70). -/
def State.canReview (s : State) : Bool :=
  s.prj.running.isNone && s.inv.status.anchored && s.tb.clock.isSome

/-- A review starts from a fresh snapshot; the pending-review flag is cleared (R68). -/
def State.startReview (s : State) : State :=
  match s.tb.clock with
  | none => s
  | some c => s.withPrj { s.prj with running := some (.review (s.snapshot c)), pendingReview := false }

/-- A review is requested: it starts at once where it can, and otherwise the pending-review flag is set (R70). -/
def State.requestReview (s : State) : State :=
  if s.canReview then s.startReview else s.withPrj { s.prj with pendingReview := true }

/-- A review that is owed starts where it can (R68, R71 step 1). -/
def State.startPendingReview (s : State) : State :=
  if s.prj.pendingReview && s.canReview then s.startReview else s

/-- The candidate of the check in flight, running or waiting (R64). -/
def State.inFlight (s : State) : Option Terms :=
  match s.prj.running with
  | some (.check candidate _) => some candidate
  | _ => s.prj.waiting

/-- The fields of a check report after the status byte and the result code (R79, section 10.9). -/
def reportFields (candidate : Terms) (failure : Option Failure) (revision : BitVec 16) : List Byte :=
  u16 candidate.reference ++ u8 ((failure.map fun f => f.reason.code).getD 0) ++
  u8 ((failure.map Failure.tier).getD 0) ++ u32 ((failure.map Failure.interval).getD 0) ++ u16 revision.toNat

/-- The end of a check is reported: in HOLD mode by the held SUBMIT response (R80), in NOTIFY mode by CHECK_DONE and a notice
(R81). -/
def State.reportEnd (s : State) (candidate : Terms) (result : Result) (failure : Option Failure) : State :=
  match s.prj.checkMode with
  | .hold => s.respond .tp 0x22#8 result (reportFields candidate failure s.book.revision)
  | .notify => (s.raise .tp .checkDone).notice result (reportFields candidate failure s.book.revision)

/-- A check starts from a fresh snapshot; with the clock UNSET it walks nothing and ends at once (R68). -/
def State.startCheck (s : State) (candidate : Terms) : State :=
  match s.tb.clock with
  | some c => s.withPrj { s.prj with running := some (.check candidate (s.snapshot c)), waiting := none }
  | none =>
    (s.withPrj { s.prj with waiting := none }).reportEnd candidate
      (if s.prof.mode = .service then .gateClosed else .wrongMode) none

/-- A candidate handed over finds the engine idle and starts, or finds a review running and waits (R69). -/
def State.handOver (s : State) (candidate : Terms) : State :=
  if s.prj.running.isNone then s.startCheck candidate
  else s.withPrj { s.prj with waiting := some candidate }

/-- A job has ended: the engine goes to the pending review, else to the waiting check, else it is idle (R71). -/
def State.passOn (s : State) : State :=
  let s := s.withPrj { s.prj with running := none }
  if s.prj.pendingReview && s.canReview then s.startReview
  else
    match s.prj.waiting with
    | some candidate => s.startCheck candidate
    | none => s

/-- The marks of the book are set from a job's walk (R74), over the blocks `blocks` that now form the book. The revision increases
by 1 if a block was inserted or a mark changed (R49); AT_RISK is raised if a block is marked that was not (R75). -/
def State.setMarks (s : State) (blocks : List Block) (inserted : Bool) (f : Option Failure) : State :=
  let marked := markBook f blocks
  let s' := s.withBook
    { blocks := marked, revision := if inserted || decide (marked ≠ blocks) then s.book.revision + 1 else s.book.revision }
  if blocks.any fun b => marksBlock f b.terms && !b.atRisk then (s'.raise .pp .atRisk).raise .tp .atRisk else s'

/-- The place a block's first interval gives it in the order of the book (R48, R51). -/
def insertBlock (b : Block) : List Block → List Block
  | [] => [b]
  | x :: rest => if b.terms.first < x.terms.first then b :: x :: rest else x :: insertBlock b rest

end Sys2Proof.Machine
end

