-- ==== Sys2Proof/Machine/TrainOps.lean ====
section
/-! DEFINITION. The operations of the Train Controller (spec/05) that several events share: entering and leaving states, tripping,
lockout and release, reported statuses, starts and stops, with what the Dispatch Unit does at each (R122, R128). -/

namespace Sys2Proof.Machine

def State.setTrain (s : State) (t : Train) (r : TrainRecord) : State :=
  s.withTrc { s.trc with records := s.trc.records.set t r }

def State.setSetpoint (s : State) (t : Train) (kw : Nat) : State :=
  s.withDu { s.du with setpoint := s.du.setpoint.set t kw }

/-- The settings of a train (R86). -/
def State.trainCfg (s : State) (t : Train) : TrainSettings := s.cfg.trains.get t

/-- When a train leaves a state, the timer of that state stops and its flag clears (R89); the others are stopped already. -/
def TrainRecord.leave (r : TrainRecord) : TrainRecord :=
  { r with minDown := .stopped, minRun := .stopped, start := .stopped, stop := .stopped, cooldown := .stopped }

/-- Some train of a kind is STARTING, RUNNING or STOPPING (R94). -/
def State.anyActive (s : State) (k : Kind) : Bool := k.trains.any fun t => (s.train t).state.active

/-- Some train of a kind is STARTING (R94). -/
def State.anyStarting (s : State) (k : Kind) : Bool := k.trains.any fun t => decide ((s.train t).state = .starting)

/-- A train entered or left the unavailable set: the generation increases by 1, CAPACITY is raised on the trade port and a review
is requested (R111). -/
def State.changeAvailability (s : State) : State :=
  ((s.withTrc { s.trc with generation := s.trc.generation + 1 }).raise .tp .capacity).requestReview

/-- The Dispatch Unit is told that a train of a kind has left the active states: if the kind is empty, the dwell timer is loaded;
a changeover dwell of 0 loads nothing (R122). -/
def State.leftActive (s : State) (k : Kind) : State :=
  if 0 < s.cfg.dwell && !s.anyActive k then
    s.withDu { s.du with dwell := some (s.now + s.cfg.dwell), dwellKind := some k }
  else s

/-- Every entry to TRIPPED (R104); the setpoint goes to 0 (R128). -/
def State.trip (s : State) (t : Train) (reason : TripReason) : State :=
  let r := s.train t
  let s := s.setTrain t { r.leave with state := .tripped, reason := some reason }
  let s := s.setSetpoint t 0
  let s := s.raise .pp .trip
  let s := s.changeAvailability
  if r.state.active then s.leftActive t.kind else s

/-- The train is tripped if it is active (R109, R110). -/
def State.tripIfActive (reason : TripReason) (s : State) (t : Train) : State :=
  if (s.train t).state.active then s.trip t reason else s

/-- Every active train is tripped, in the order C1 to E3 (R109, R110). -/
def State.tripActive (s : State) (reason : TripReason) : State :=
  Train.all.foldl (State.tripIfActive reason) s

/-- Entry to LOCKED (R105). -/
def State.lock (s : State) (t : Train) : State :=
  s.setTrain t
    { (s.train t).leave with
      state := .locked, cooldown := .load (s.trainCfg t).cooldown s.now, releaseTaken := false }

/-- The three release conditions of a LOCKED train (R107). -/
def TrainRecord.releasable (r : TrainRecord) : Bool :=
  decide (r.state = .locked) && r.cooldown.expired && r.releaseTaken &&
  (decide (r.sensitivity = .edge) || r.lineHigh)

/-- A LOCKED train is released to STOPPED if the conditions hold (R107). -/
def State.tryRelease (s : State) (t : Train) : State :=
  let r := s.train t
  if r.releasable then
    (s.setTrain t { r.leave with state := .stopped, minDown := .ranOut, releaseTaken := false, reason := none }).changeAvailability
  else s

/-- A STARTING train reported RUNNING enters RUNNING: min-run is loaded, the setpoint becomes min stable (R96, R128). -/
def State.completeStart (s : State) (t : Train) : State :=
  let c := s.trainCfg t
  (s.setTrain t { (s.train t).leave with state := .running, minRun := .load c.minRun s.now }).setSetpoint t c.minStable

/-- A STOPPING train reported STOPPED enters STOPPED: min-down is loaded and the Dispatch Unit is told (R96). -/
def State.completeStop (s : State) (t : Train) : State :=
  (s.setTrain t
    { (s.train t).leave with state := .stopped, minDown := .load (s.trainCfg t).minDown s.now }).leftActive t.kind

/-- A reported status applied to a train's state (R98, R99). -/
def State.applyReport (s : State) (t : Train) (report : Reported) : State :=
  match (s.train t).state, report with
  | .absent, _ => s
  | .offline, _ => s
  | .locked, _ => s
  | .tripped, .stopped => s.lock t
  | .tripped, _ => s
  | .stopped, .stopped => s
  | .stopped, .tripped => s.trip t .plant
  | .stopped, _ => s.trip t .uncommanded
  | .starting, .stopped => s
  | .starting, .starting => s
  | .starting, .running => s.completeStart t
  | .starting, .stopping => s.trip t .uncommanded
  | .starting, .tripped => s.trip t .plant
  | .running, .running => s
  | .running, .tripped => s.trip t .plant
  | .running, _ => s.trip t .unexpectedStop
  | .stopping, .running => s
  | .stopping, .stopping => s
  | .stopping, .stopped => s.completeStop t
  | .stopping, .starting => s.trip t .uncommanded
  | .stopping, .tripped => s.trip t .plant

/-- One train's part of a METER taken: the report is recorded and applied; an ABSENT train's is ignored (R97). -/
def State.takeReport (report : MeterReport) (s : State) (t : Train) : State :=
  let r := s.train t
  match r.state, Reported.ofCode (report.trains.get t).status with
  | .absent, _ => s
  | _, none => s
  | _, some status =>
    (s.setTrain t { r with reported := some status, output := (report.trains.get t).output.toNat }).applyReport t status

/-- Every train's part of a METER, in the order C1 to E3 (R97). -/
def State.takeReports (s : State) (report : MeterReport) : State :=
  Train.all.foldl (State.takeReport report) s

/-- Metered net output: turbines less compressors, over the trains that are not ABSENT (R129). -/
def State.meteredOutput (s : State) : Int :=
  let sum := fun (k : Kind) =>
    ((k.trains.filter fun t => decide ((s.train t).state ≠ .absent)).map fun t => (s.train t).output).sum
  (sum .turbine : Int) - sum .compressor

/-- A train in STOPPED is startable when its min-down has expired and its start history is below its limit (R88). -/
def State.startable (s : State) (t : Train) : Bool :=
  let r := s.train t
  decide (r.state = .stopped) && r.minDown.expired && decide (r.history.length < (s.trainCfg t).startsPerDay)

/-- The six conditions of a START (R94). -/
def State.mayStart (s : State) (t : Train) : Bool :=
  decide (s.prof.mode = .service) && s.startable t && !s.anyStarting t.kind && !s.anyActive t.kind.other

/-- A START passed to the Train Controller: carried out if it is taken, and otherwise nothing changes (R94). -/
def State.startTrain (s : State) (t : Train) : State :=
  if s.mayStart t then
    let r := s.train t
    s.setTrain t
      { r.leave with
        state := .starting, history := r.history ++ [s.now], start := .load (s.trainCfg t).startTimeout s.now }
  else s

/-- The conditions of a STOP (R95). -/
def State.mayStop (s : State) (t : Train) : Bool :=
  decide (s.prof.mode = .service) && decide ((s.train t).state = .running) && (s.train t).minRun.expired

/-- A STOP passed to the Train Controller: carried out if it is taken, and otherwise nothing changes (R95); the setpoint goes to 0
(R128). -/
def State.stopTrain (s : State) (t : Train) : State :=
  if s.mayStop t then
    (s.setTrain t
      { (s.train t).leave with state := .stopping, stop := .load (s.trainCfg t).stopTimeout s.now }).setSetpoint t 0
  else s

/-- A train made ABSENT loses its whole record; only the trip input's level and the sensitivity in force stay (R86). The MODEL's choice (log
entry 36, DESIGN CHOICE): an active train made ABSENT loads no dwell, since it is neither of the notices that R122 lists, although the
first sentence of R122 speaks of any leaving of the active states. -/
def State.makeAbsent (s : State) (t : Train) : State :=
  let r := s.train t
  let s := s.setTrain t { TrainRecord.afterReset r.lineHigh with sensitivity := r.sensitivity }
  let s := s.setSetpoint t 0
  if r.state.unavailable then s else s.changeAvailability

/-- The installed flag of a passing check acts on a train's state (R86). -/
def State.applyInstalled (s : State) (t : Train) : State :=
  if (s.trainCfg t).installed then
    if (s.train t).state = .absent then s.setTrain t { s.train t with state := .offline } else s
  else s.makeAbsent t

/-- Min-down runs out: the flag is set and the timer stops (R89). -/
def State.minDownRanOut (s : State) (t : Train) : State := s.setTrain t { s.train t with minDown := .ranOut }

/-- Min-run runs out: the flag is set and the timer stops (R89). -/
def State.minRunRanOut (s : State) (t : Train) : State := s.setTrain t { s.train t with minRun := .ranOut }

/-- The start timer runs out: a STARTING train is tripped with reason START_TIMEOUT (R90). -/
def State.startRanOut (s : State) (t : Train) : State :=
  if (s.train t).state = .starting then s.trip t .startTimeout else s.setTrain t { s.train t with start := .ranOut }

/-- The stop timer runs out: a STOPPING train is tripped with reason STOP_TIMEOUT (R90). -/
def State.stopRanOut (s : State) (t : Train) : State :=
  if (s.train t).state = .stopping then s.trip t .stopTimeout else s.setTrain t { s.train t with stop := .ranOut }

/-- The cooldown runs out: the flag is set, RELEASE_READY is raised and release is tested (R89, R105, R107). -/
def State.cooldownRanOut (s : State) (t : Train) : State :=
  ((s.setTrain t { s.train t with cooldown := .ranOut }).raise .pp .releaseReady).tryRelease t

/-- The age at which a start leaves the history, seconds (R91). -/
def startHistoryAge : Nat := 86400

/-- Entries whose age has reached 86,400 s leave the front of a train's history (R91). -/
def State.pruneHistory (s : State) (t : Train) : State :=
  s.setTrain t
    { s.train t with
      history := (s.train t).history.dropWhile fun stamp => decide (startHistoryAge ≤ s.now - stamp) }

/-- The permit hold runs out: it stops, and every active train is tripped with reason LINK (R109). -/
def State.permitHoldRanOut (s : State) : State := (s.withTrc { s.trc with permitHold := none }).tripActive .link

/-- A falling edge on a trip input: the level is recorded, and the edge acts on the state (R100, R101). -/
def State.fallingEdge (s : State) (t : Train) : State :=
  let r := { s.train t with lineHigh := false }
  let s := s.setTrain t r
  match r.state with
  | .stopped => s.trip t .tripLine
  | .starting => s.trip t .tripLine
  | .running => s.trip t .tripLine
  | .stopping => s.trip t .tripLine
  | .locked => s.setTrain t { r with cooldown := .load (s.trainCfg t).cooldown s.now, releaseTaken := false }
  | .tripped => s
  | .offline => s
  | .absent => s

/-- A rising edge on a trip input: the level is recorded; a LOCKED train under EDGE_AND_LEVEL is tested for release (R100, R103). -/
def State.risingEdge (s : State) (t : Train) : State :=
  let r := { s.train t with lineHigh := true }
  let s := s.setTrain t r
  if r.state = .locked ∧ r.sensitivity = .edgeAndLevel then s.tryRelease t else s

end Sys2Proof.Machine
end

