-- ==== Sys2Proof/Machine/ScheduleOps.lean ====
section
/-! DEFINITION. The interval boundary and what hangs on the current interval: the current block (R50), the reserve band (R135,
R139), the settlement record's opening and closing (R149, R151), block expiry (R60), and the passing of device time (R39). -/

namespace Sys2Proof.Machine

/-- The current block: the block that covers the current interval; none while the clock is UNSET (R50). -/
def State.currentBlock (s : State) : Option Block :=
  match s.tb.clock with
  | none => none
  | some c => s.book.blocks.find? fun b => b.terms.covers c.interval

/-- The reserve band: how far down and how far up (R135). -/
structure Band where
  down : Nat
  up : Nat
deriving DecidableEq, Repr

def Band.ofBlock : Option Block → Band
  | none => { down := 0, up := 0 }
  | some b => { down := b.terms.reserveDown, up := b.terms.reserveUp }

def State.band (s : State) : Band := Band.ofBlock s.currentBlock

/-- A request held within a band (R136). -/
def Band.clamp (b : Band) (a : Int) : Int := hold (-(b.down : Int)) b.up a

/-- The gate: current interval plus G (R53). -/
def State.gate (s : State) : Nat := s.currentInterval + s.cfg.gateClosure

/-- The scheduled base of a block, and of no block (R117, R150). -/
def scheduledBase : Option Block → Int
  | none => 0
  | some b =>
    match b.terms.direction with
    | .discharge => b.terms.power
    | .charge => -b.terms.power
    | .idle => 0

/-- M as the Settlement Log records it: absent while UNANCHORED (R22). -/
def State.recordedMass (s : State) : Option Nat :=
  if s.inv.status.anchored then some s.inv.mass else none

/-- A record is opened for the current interval (R149). -/
def State.openRecord (s : State) (isPartial : Bool) : State :=
  match s.tb.clock with
  | none => s
  | some c =>
    s.withSlog
      { s.slog with
        current := some
          { interval := c.interval
            reference := s.currentBlock.map fun b => b.terms.reference
            startMass := s.recordedMass
            startEpoch := s.inv.epoch
            scheduled := 0
            delivered := 0
            reserveUp := 0
            reserveDown := 0
            ticks := 0
            flags :=
              { atRisk := (s.currentBlock.map Block.atRisk).getD false
                derated := false
                minLoad := false
                stale := decide (s.inv.metering = .stale)
                gridLost := s.rsv.holdTimer.isSome
                clamped := false
                discontinuity := false
                isPartial := isPartial } } }

/-- The most records the ring holds (R147). -/
def ringLength : Nat := 96

/-- A record appended to the ring; a full ring loses its oldest record first (R151 steps 3 and 4). -/
def appendRecord (ring : List ClosedRecord) (r : ClosedRecord) : List ClosedRecord :=
  (if ringLength ≤ ring.length then ring.drop (ring.length - (ringLength - 1)) else ring) ++ [r]

/-- An open record as it is closed now (R151 steps 1 and 2). -/
def State.closed (s : State) (r : OpenRecord) : ClosedRecord where
  opened := r
  endMass := s.recordedMass
  endEpoch := s.inv.epoch
  scheduledKwh := toKwh r.scheduled
  deliveredKwh := toKwh r.delivered
  reserveUpKwh := toKwh r.reserveUp
  reserveDownKwh := toKwh r.reserveDown

/-- The open record, if there is one, is closed and RECORD is raised (R151). -/
def State.closeRecord (s : State) : State :=
  match s.slog.current with
  | none => s
  | some r => (s.withSlog { current := none, ring := appendRecord s.slog.ring (s.closed r) }).raise .tp .record

/-- The blocks whose last interval has just ended leave the book; the revision increases by 1 if one does (R49, R60). -/
def State.expireBlocks (s : State) (ended : Nat) : State :=
  let kept := s.book.blocks.filter fun b => decide (b.terms.last ≠ ended)
  if kept.length < s.book.blocks.length then
    s.withBook { blocks := kept, revision := s.book.revision + 1 }
  else s

/-- g is held within the band that now stands; BAND is raised if it differs from the old band (R139). -/
def State.reclamp (s : State) (old : Band) : State :=
  let s' := s.withRsv { s.rsv with granted := s.band.clamp s.rsv.granted }
  if s.band = old then s' else s'.raise .gp .band

/-- The clock after a boundary with `millis` into the new interval; past the last interval it becomes UNSET (R39, R45). -/
def Clock.next (c : Clock) (millis : Nat) : Option Clock :=
  if c.interval < lastInterval then some { interval := c.interval + 1, millis := millis } else none

/-- An interval boundary, leaving `millis` milliseconds into the new interval: 0 when time brings it, the rest of the correction
when a forward trim does (R39, R43). Each of the four blocks acts; while the clock is UNSET there is no boundary. -/
def State.boundary (s : State) (millis : Nat) : State :=
  match s.tb.clock with
  | none => s
  | some c =>
    let old := s.band
    let s := s.withTb { s.tb with clock := c.next millis }
    let s := s.expireBlocks c.interval
    let s := s.reclamp old
    let s := s.closeRecord
    let s := s.openRecord false
    s.requestReview

/-- Milliseconds in an interval of the length in force (R39). -/
def State.intervalMillis (s : State) : Nat := s.cfg.intervalLength * 60000

/-- `n` milliseconds of device time pass for the interval clock: they are added, and the boundary they reach is taken, the rest
counting in the new interval (R39). -/
def State.runClock (s : State) (n : Nat) : State :=
  match s.tb.clock with
  | none => s
  | some c =>
    if c.millis + n < s.intervalMillis then s.withTb { s.tb with clock := some { c with millis := c.millis + n } }
    else s.boundary (c.millis + n - s.intervalMillis)

/-- The same, but the boundary that falls at the very end of these milliseconds is still to be taken (R39). -/
def State.runClockUpTo (s : State) (n : Nat) : State :=
  match s.tb.clock with
  | none => s
  | some c =>
    if c.millis + n ≤ s.intervalMillis then s.withTb { s.tb with clock := some { c with millis := c.millis + n } }
    else s.boundary (c.millis + n - s.intervalMillis)

/-- The boundary of an interval whose milliseconds stand at L × 60,000 is taken (R39). -/
def State.takeReached (s : State) : State :=
  match s.tb.clock with
  | none => s
  | some c => if c.millis = s.intervalMillis then s.boundary 0 else s

end Sys2Proof.Machine
end

