-- ==== Sys2Proof/Config.lean ====
section
/-! DEFINITION. What the manual leaves open: constants with no body, so that no proof can lean on a value of them. -/

namespace Sys2Proof

/-- FREE VALUE. Whether the third step of a store had completed when a reset took the store (R164 says the reset ends the
store where it stands and gives no way to tell where that is). Drawn by the model's own counter `State.draws`; log entry 4. -/
opaque Config.storeFinished : Nat → Bool

/-- FREE VALUE. Whether the store's second step had reached the given field, 1 to 157, when a reset took the store: R164
calls what stands there "the mixture of old and new values". Log entry 4. -/
opaque Config.storeReached : Nat → Nat → Bool

/-- FREE VALUE. What a trip-sensitivity field of the working image that holds neither 0 nor 1 makes of the sensitivity in
force (`true` is EDGE_AND_LEVEL). Such a value can stand there only when a memory fault (R157) strikes while the entry check
runs; R102 states no result for it. Log entry 5. -/
opaque Config.otherSensitivity : Nat → Bool

end Sys2Proof
end

