-- ==== Sys2Proof/Machine/SiteProfile.lean ====
section
/-! DEFINITION. The site profile: reading and writing fields of an image, the profile check (spec/09, R158, R159), and the
settings that a passing check hands to the blocks (R2, R25, R40, R86, R114, R134, R160). -/

namespace Sys2Proof.Machine

/-- The number of fields of an image (R157). -/
def fieldCount : Nat := 158

/-- What a never-written field reads, and what the first step of a store writes in field 158 (R157, R164). -/
def allOnes : Word := 0xFFFFFFFF#32

/-- The raw value of a field, by field id from 1 (R158). -/
def Image.word (image : Image) (id : Nat) : Word := image.toList.getD (id - 1) 0#32

/-- The value of a field, by field id from 1 (R158). -/
def Image.field (image : Image) (id : Nat) : Nat := (image.word id).toNat

/-- An image with one field replaced; an id outside 1 to 158 replaces none. -/
def Image.write (image : Image) (id : Nat) (value : Word) : Image :=
  if 1 ≤ id then image.setIfInBounds (id - 1) value else image

def inRange (lo hi v : Nat) : Bool := decide (lo ≤ v) && decide (v ≤ hi)

/-- The fields of a tier from field `base`: q_c, q_d, λ, H_cap, H_min, heat-rate plausibility (R158). -/
def tierFieldOk (image : Image) (base offset : Nat) : Bool :=
  let v := image.field (base + offset)
  match offset with
  | 0 => inRange 0 2000 v
  | 1 => inRange 0 2000 v
  | 2 => inRange 0 1000 v
  | 3 => inRange 1 4000000000 v
  | 4 => decide (v < image.field (base + 3))
  | _ => inRange 1 1000 v

/-- The fields of a train from field `base`, in the order of the second table of R158. -/
def trainFieldOk (image : Image) (base offset : Nat) : Bool :=
  let v := image.field (base + offset)
  match offset with
  | 0 => inRange 0 1 v
  | 1 => inRange 1 200000 v
  | 2 => decide (v ≤ image.field (base + 1))
  | 3 => inRange 60 7200 v
  | 4 => inRange 60 7200 v
  | 5 => inRange 30 1800 v
  | 6 => inRange 30 1800 v
  | 7 => inRange 60 14400 v
  | 8 => inRange 1 8 v
  | 9 => inRange 0 1 v
  | _ => inRange 1 2000 v

/-- The field does not equal any of the fields from `first` up to the one before it (R158, merit orders). -/
def notEarlier (image : Image) (first id : Nat) : Bool :=
  (List.range' first (id - first)).all fun j => decide (image.field j ≠ image.field id)

/-- Whether a check accepts one field: its range, the agreements with earlier fields, and the check word (R158, R159). -/
def fieldOk (image : Image) (id : Nat) : Bool :=
  let v := image.field id
  if id = 1 then inRange 0 65535 v
  else if id = 2 then decide (v = 5) || decide (v = 15) || decide (v = 30) || decide (v = 60)
  else if id = 3 then inRange 1 8 v
  else if id = 4 then inRange 5 120 v
  else if id = 5 then inRange 0 2000000 v
  else if id = 6 then inRange 0 4000000000 v
  else if id ≤ 21 then inRange 0 4000000000 v && decide (image.field (id - 1) < v)
  else if id = 22 then inRange 1 65535 v
  else if id ≤ 37 then inRange 1 65535 v && decide (image.field (id - 1) < v)
  else if id = 38 then inRange (image.field 22) (image.field 37) v
  else if id = 39 then inRange (image.field 22) (image.field 37) v && decide (image.field 38 < v)
  else if id ≤ 41 then inRange 1 200000 v
  else if id = 42 then inRange 0 10000 v
  else if id = 43 then inRange 1 2000 v
  else if id = 44 then inRange 1 255 v
  else if id ≤ 46 then inRange 1000 20000 v
  else if id ≤ 64 then tierFieldOk image (47 + (id - 47) / 6 * 6) ((id - 47) % 6)
  else if id ≤ 141 then trainFieldOk image (65 + (id - 65) / 11 * 11) ((id - 65) % 11)
  else if id ≤ 143 then inRange 1 50000 v
  else if id = 144 then inRange 0 3600 v
  else if id ≤ 148 then inRange 1 4 v && notEarlier image 145 id
  else if id ≤ 151 then inRange 1 3 v && notEarlier image 149 id
  else if id = 152 then inRange 3 60 v
  else if id = 153 then inRange 5 300 v
  else if id = 154 then inRange 2 60 v
  else if id = 155 then inRange 0 300 v
  else if id = 156 then inRange 1 255 v
  else if id = 157 then inRange 0 1 v
  else inRange 0 65535 v && decide (v = (crc16 image).toNat)

/-- The failing field of a check: the first field, in order of field id, that it does not accept; none on a pass (R158). -/
def failingField (image : Image) : Option Nat :=
  (List.range' 1 fieldCount).find? fun id => !fieldOk image id

/-- The first field of a train, and of a tier (R158). -/
def trainField : Train → Nat
  | .c1 => 65
  | .c2 => 76
  | .c3 => 87
  | .c4 => 98
  | .e1 => 109
  | .e2 => 120
  | .e3 => 131

def tierField : Tier → Nat
  | .t1 => 47
  | .t2 => 53
  | .t3 => 59

def TrainSettings.ofImage (image : Image) (t : Train) : TrainSettings :=
  let v := fun offset => image.field (trainField t + offset)
  { installed := decide (v 0 = 1)
    maxKw := v 1
    minStable := v 2
    minRun := v 3
    minDown := v 4
    startTimeout := v 5
    stopTimeout := v 6
    cooldown := v 7
    startsPerDay := v 8
    massRate := v 10 }

def TierSettings.ofImage (image : Image) (k : Tier) : TierSettings :=
  let v := fun offset => image.field (tierField k + offset)
  { qCharge := v 0
    qDischarge := v 1
    lossRate := v 2
    capacity := v 3
    minHeat := v 4
    heatRate := v 5 }

/-- The sixteen points of fields 6 to 37. -/
def Image.table (image : Image) : List TablePoint :=
  (List.range 16).map fun i => { mass := image.field (6 + i), pressure := image.field (22 + i) }

/-- A merit place names C1 to C4 by 1 to 4 (R158). -/
def compressorOfPlace : Nat → Train
  | 1 => .c1
  | 2 => .c2
  | 3 => .c3
  | _ => .c4

/-- A merit place names E1 to E3 by 1 to 3 (R158). -/
def turbineOfPlace : Nat → Train
  | 1 => .e1
  | 2 => .e2
  | _ => .e3

/-- What the blocks take from the image of a passing check (R2, R25, R40, R86, R114, R134, R160). -/
def Settings.ofImage (image : Image) : Settings :=
  let table := image.table
  let airCharge := image.field 45
  let airDischarge := image.field 46
  let rateCharge := image.field 40
  let rateDischarge := image.field 41
  { intervalLength := image.field 2
    gateClosure := image.field 3
    reserveDuration := image.field 4
    massMargin := image.field 5
    table := table
    rateCharge := rateCharge
    rateDischarge := rateDischarge
    leakage := image.field 42
    driftTolerance := image.field 43
    driftLimit := image.field 44
    airCharge := airCharge
    airDischarge := airDischarge
    tiers := PerTier.of (TierSettings.ofImage image)
    trains := PerTrain.of (TrainSettings.ofImage image)
    rampUp := image.field 142
    rampDown := image.field 143
    dwell := image.field 144
    compressorOrder := [145, 146, 147, 148].map fun i => compressorOfPlace (image.field i)
    turbineOrder := [149, 150, 151].map fun i => turbineOfPlace (image.field i)
    staleLimit := image.field 152
    permitHold := image.field 153
    linkTimeout := image.field 154
    activationHold := image.field 155
    portErrorLimit := image.field 156
    massFloor := inverseTable table (image.field 38)
    massCeil := inverseTable table (image.field 39)
    dischargeCap := rateDischarge * 60000 / airDischarge
    chargeCap := rateCharge * 60000 / airCharge }

/-- The default check mode of an image (R65, field 157). -/
def Image.defaultCheckMode (image : Image) : CheckMode :=
  if image.field 157 = 1 then .notify else .hold

/-- The trip sensitivity that an image gives a train (R102; 0 EDGE, 1 EDGE_AND_LEVEL). Any other value can only be the work of
a memory fault, and what it makes of the sensitivity is a FREE VALUE (log entry 5). -/
def Image.sensitivity (image : Image) (t : Train) : Sensitivity :=
  match image.field (trainField t + 9) with
  | 0 => .edge
  | 1 => .edgeAndLevel
  | v => if Config.otherSensitivity v then .edgeAndLevel else .edge

/-- The stored image that a reset finds where a store of `source` was in progress (R164). Either the third step had completed,
or field 158 holds 4,294,967,295 and fields 1 to 157 hold a mixture of old and new values; which, are FREE VALUES (log entry 4). -/
def interruptedStore (draw : Nat) (source stored : Image) : Image :=
  if Config.storeFinished draw then source
  else Vector.ofFn fun i : Fin 158 =>
    if i.val = 157 then allOnes
    else if Config.storeReached draw (i.val + 1) then source.get i else stored.get i

end Sys2Proof.Machine
end

