-- ==== Sys2Proof/Machine/ModeOps.lean ====
section
/-! DEFINITION. The coordinator mode (spec/09, section 9.4) and the completion of a profile check: what every block takes from a
passing check, and what a check's purpose does to the mode (R160, R161, R168, R171). -/

namespace Sys2Proof.Machine

/-- The mode changes; MODE is raised on the trade and grid ports (spec/09, section 9.4). -/
def State.setMode (s : State) (m : Mode) : State :=
  ((s.withProf { s.prof with mode := m }).raise .tp .mode).raise .gp .mode

/-- The Dispatch Unit's targets, headrooms and setpoints at 0 (R116, R132). -/
def DispatchUnit.zeroed (d : DispatchUnit) : DispatchUnit :=
  { d with target := 0, previous := 0, working := 0, clamped := 0, headroomUp := 0, headroomDown := 0,
           setpoint := ⟨0, 0, 0, 0, 0, 0, 0⟩ }

/-- What leaving SERVICE does to the Dispatch Unit (R132), the Reserve Unit (R140) and the background timer (R170). -/
def State.leaveService (s : State) : State :=
  let s := s.withDu { s.du.zeroed with derateReported := false }
  let s := s.withRsv { s.rsv with granted := 0 }
  s.withProf { s.prof with background := none }

/-- The mode becomes FAULTED (R110, R171). -/
def State.enterFaulted (s : State) : State :=
  ((s.setMode .faulted).tripActive .coord).leaveService

/-- The period of the background check, seconds (R170). -/
def backgroundPeriod : Nat := 3600

/-- Each train's trip sensitivity is taken from the working image (R102, R168). -/
def State.takeSensitivities (s : State) : State :=
  s.withTrc { s.trc with
    records := PerTrain.of fun t => { s.train t with sensitivity := s.prof.working.sensitivity t } }

/-- A passing ENTRY check makes the mode SERVICE (R168): sensitivities are taken and LOCKED trains tested (R102), a review is
requested (R70) and the background timer is loaded (R170). -/
def State.enterService (s : State) : State :=
  let s := s.setMode .service
  let s := Train.all.foldl State.tryRelease s.takeSensitivities
  let s := s.requestReview
  s.withProf { s.prof with background := some (s.now + backgroundPeriod) }

/-- The Inventory Unit loads its settings: M and the heats are clamped, and baselines of trains not installed go (R2). -/
def State.loadInventory (s : State) (c : Settings) : State :=
  let mass := min s.inv.mass c.lastMass
  let heat := PerTier.of fun k => min (s.inv.heat.get k) (c.tiers.get k).capacity
  let clampedAny := decide (mass ≠ s.inv.mass) || decide (heat ≠ s.inv.heat)
  let s := s.withInv
    { s.inv with
      mass := mass
      heat := heat
      massBase := PerTrain.of fun t => if (c.trains.get t).installed then s.inv.massBase.get t else none }
  if clampedAny then (s.raise .pp .clamp).markRecord .setClamped else s

/-- A new L in force takes the boundary at once where the milliseconds into the interval have reached the new length (R40). -/
def State.applyLength (s : State) (oldLength : Option Nat) : State :=
  match s.tb.clock with
  | none => s
  | some c =>
    if oldLength ≠ some s.cfg.intervalLength ∧ s.intervalMillis ≤ c.millis then s.boundary 0 else s

/-- The default check mode is applied at the first passing check since the reset, unless a CHECK MODE was taken (R65). -/
def State.applyDefaultMode (s : State) (m : CheckMode) : State :=
  if s.prj.defaultApplied then s else s.withPrj { s.prj with checkMode := m, defaultApplied := true }

/-- Each RUNNING train's setpoint is clamped to the new min stable and max of that train (R114). -/
def State.clampSetpoints (s : State) : State :=
  s.withDu { s.du with
    setpoint := PerTrain.of fun t =>
      if (s.train t).state = .running then
        max (s.trainCfg t).minStable (min (s.trainCfg t).maxKw (s.du.setpoint.get t))
      else s.du.setpoint.get t }

/-- When settings are first loaded after a reset with the link LINKED, the link timer is loaded (R134). -/
def State.firstLinkLoad (s : State) (wasLoaded : Bool) : State :=
  if !wasLoaded && decide (s.rsv.link = .linked) then
    s.withRsv { s.rsv with linkTimer := some (s.now + s.cfg.linkTimeout) }
  else s

/-- A passing check hands the image's values to the blocks, each of which takes its copy (R160). The MODEL's choice (log entry 20, DESIGN
CHOICE): the installed flags act on the trains one after another, C1 to E3, so a review that the first removal starts shows in its
snapshot the later trains before their flags act; R86 gives no order. -/
def State.handValues (s : State) (image : Image) : State :=
  let old := s.settings
  let s := s.withSettings (some (.ofImage image))
  let s := s.loadInventory s.cfg
  let s := s.applyLength (old.map Settings.intervalLength)
  let s := s.applyDefaultMode image.defaultCheckMode
  let s := Train.all.foldl State.applyInstalled s
  let s := s.clampSetpoints
  s.firstLinkLoad old.isSome

/-- What a check that passes does to the mode (R161). -/
def State.modeAfterPass (s : State) (purpose : Purpose) : State :=
  match purpose, s.prof.mode with
  | .powerUp, .checking => s.setMode .maintenance
  | .entry, .maintenance => s.enterService
  | _, _ => s

/-- What a check that fails does to the mode (R161). -/
def State.modeAfterFail (s : State) (purpose : Purpose) : State :=
  match purpose, s.prof.mode with
  | .powerUp, .checking => s.setMode .maintenance
  | .plain, .service => s.enterFaulted
  | _, _ => s

/-- A check completes with a pass (R160, R161). -/
def State.checkPassed (s : State) (purpose : Purpose) (image : Image) : State :=
  let s := s.withProf
    { s.prof with bad := false, lastCheck := .pass, failingField := 0, activity := .idle, siteCode := image.field 1 }
  ((s.handValues image).modeAfterPass purpose).raise .pp .profile

/-- A check completes with a fail at a field (R160, R161). -/
def State.checkFailed (s : State) (purpose : Purpose) (field : Nat) : State :=
  let s := s.withProf { s.prof with bad := true, lastCheck := .fail, failingField := field, activity := .idle }
  (s.modeAfterFail purpose).raise .pp .profile

/-- A check starts on the working image as it stands (R160). -/
def State.startCheckOf (s : State) (purpose : Purpose) : State :=
  s.withProf { s.prof with activity := .verifying purpose s.prof.working }

/-- A check or a store is in progress (R157). -/
def State.profileBusy (s : State) : Bool := decide (s.prof.activity ≠ .idle)

/-- The background timer runs out: in SERVICE it is loaded again, and a PLAIN check starts if the activity is IDLE (R170). -/
def State.takeBackground (s : State) : State :=
  if s.prof.mode = .service then
    let s := s.withProf { s.prof with background := some (s.now + backgroundPeriod) }
    if s.profileBusy then s else s.startCheckOf .plain
  else s.withProf { s.prof with background := none }

end Sys2Proof.Machine
end

