-- ==== Sys2Proof/Machine/InventoryOps.lean ====
section
/-! DEFINITION. Working a METER: the totalisers (R5 to R8), the drift test (R9 to R11), recovery (R19), and the response (R20,
R130). -/

namespace Sys2Proof.Machine

/-- The largest output a METER may report, kW (R4). -/
def maxOutput : Nat := 250000

/-- Whether a METER's fields for a train are checked: installed trains, and all seven while no settings are loaded (R4). -/
def State.checksTrain (s : State) (t : Train) : Bool :=
  match s.settings with
  | none => true
  | some c => (c.trains.get t).installed

/-- The test of R4 on the fields of a METER. -/
def State.meterValid (s : State) (report : MeterReport) : Bool :=
  Train.all.all fun t =>
    !s.checksTrain t ||
      ((Reported.ofCode (report.trains.get t).status).isSome && decide ((report.trains.get t).output.toNat ≤ maxOutput))

/-- The elapsed time of a METER (R4 step 1). -/
def State.elapsed (s : State) : Nat := s.now - s.inv.lastMeter

/-- The forward count from a baseline to a new value, modulo 2^32 (R5). -/
def delta (base value : Word) : Nat := (value - base).toNat

/-- A delta is plausible: no test is made while no settings are loaded (R6). -/
def State.plausible (s : State) (rate elapsed d : Nat) : Bool :=
  s.settings.isNone || decide (d ≤ rate * (elapsed + 2))

/-- CLAMP is raised on the plant port and the open record is marked: what a saturated application (R8) and a discarded delta (R6)
do. -/
def State.clampEvent (s : State) (mark : RecordFlags → RecordFlags) : State :=
  (s.raise .pp .clamp).markRecord mark

/-- `value` increased or decreased by `d` and held within 0 to `top` (R7, R8). -/
def saturate (increase : Bool) (top value d : Nat) : Nat :=
  if increase then min top (value + d) else value - d

/-- Whether the bound was passed (R8). -/
def saturates (increase : Bool) (top value d : Nat) : Bool :=
  if increase then decide (top < value + d) else decide (value < d)

/-- A plausible mass delta of a train is applied to M if the inventory is anchored (R7, R8). -/
def State.applyMass (s : State) (t : Train) (d : Nat) : State :=
  if s.inv.status.anchored then
    let increase := decide (t.kind = .compressor)
    let s' := s.withInv { s.inv with mass := saturate increase s.cfg.lastMass s.inv.mass d }
    if saturates increase s.cfg.lastMass s.inv.mass d then s'.clampEvent .setClamped else s'
  else s

/-- A plausible heat delta of a tier is applied to H_k if the inventory is anchored (R7, R8). -/
def State.applyHeat (s : State) (k : Tier) (increase : Bool) (d : Nat) : State :=
  if s.inv.status.anchored then
    let top := (s.cfg.tiers.get k).capacity
    let h := s.inv.heat.get k
    let s' := s.withInv { s.inv with heat := s.inv.heat.set k (saturate increase top h d) }
    if saturates increase top h d then s'.clampEvent .setClamped else s'
  else s

/-- The mass totaliser of a train (R5 to R7): not worked where the settings mark the train as not installed. -/
def State.workMass (elapsed : Nat) (report : MeterReport) (s : State) (t : Train) : State :=
  if s.checksTrain t then
    let value := (report.trains.get t).mass
    let based := s.withInv { s.inv with massBase := s.inv.massBase.set t (some value) }
    match s.inv.massBase.get t with
    | none => based
    | some base =>
      if s.plausible (s.trainCfg t).massRate elapsed (delta base value) then based.applyMass t (delta base value)
      else based.clampEvent .setDiscontinuity
  else s

/-- One heat totaliser, whose baseline has been read as `base` and replaced (R5 to R7). -/
def State.workHeat (elapsed : Nat) (k : Tier) (increase : Bool) (base : Option Word) (value : Word) (s : State) : State :=
  match base with
  | none => s
  | some b =>
    if s.plausible (s.cfg.tiers.get k).heatRate elapsed (delta b value) then s.applyHeat k increase (delta b value)
    else s.clampEvent .setDiscontinuity

/-- The two heat totalisers of a tier, heat-in before heat-out (R4 step 2). -/
def State.workTier (elapsed : Nat) (report : MeterReport) (s : State) (k : Tier) : State :=
  let v := report.tiers.get k
  let inBase := s.inv.heatInBase.get k
  let s := s.withInv { s.inv with heatInBase := s.inv.heatInBase.set k (some v.heatIn) }
  let s := s.workHeat elapsed k true inBase v.heatIn
  let outBase := s.inv.heatOutBase.get k
  let s := s.withInv { s.inv with heatOutBase := s.inv.heatOutBase.set k (some v.heatOut) }
  s.workHeat elapsed k false outBase v.heatOut

/-- Every totaliser, in the order of R4 step 2. -/
def State.workTotalisers (s : State) (report : MeterReport) : State :=
  let elapsed := s.elapsed
  Tier.all.foldl (State.workTier elapsed report) (Train.all.foldl (State.workMass elapsed report) s)

/-- The estimated pressure; 0 while no settings are loaded (R9, R20, R23). -/
def State.estimatedPressure (s : State) : Nat :=
  match s.settings with
  | none => 0
  | some c => forwardTable c.table s.inv.mass

/-- The absolute difference of two numbers. -/
def distance (a b : Nat) : Nat := (a - b) + (b - a)

/-- The drift count after a METER's drift test (R10). -/
def State.nextDrift (s : State) (pressure : Nat) : Nat :=
  if s.cfg.driftTolerance < distance s.estimatedPressure pressure then min 255 (s.inv.drift + 1) else 0

/-- The change from TRACKING to DRIFTED (R11). -/
def State.becomeDrifted (s : State) : State :=
  (((s.withInv { s.inv with status := .drifted }).raise .pp .drift).raise .tp .inventory).requestReview

/-- The drift test, run if the inventory is anchored (R10). -/
def State.driftTest (s : State) (pressure : Nat) : State :=
  if s.inv.status.anchored then
    let s := s.withInv { s.inv with drift := s.nextDrift pressure }
    if s.inv.status = .tracking ∧ s.cfg.driftLimit ≤ s.inv.drift then s.becomeDrifted else s
  else s

/-- Recovery of the metering: the flag becomes FRESH, INVENTORY is raised, the permit hold stops (R19, R109). -/
def State.recover (s : State) : State :=
  if s.inv.metering = .stale then
    ((s.withInv { s.inv with metering := .fresh }).withTrc { s.trc with permitHold := none }).raise .tp .inventory
  else s

/-- A METER taken, worked in full (R4, R97, R129, R19). -/
def State.workMeter (s : State) (report : MeterReport) : State :=
  let s := s.workTotalisers report
  let s := s.driftTest report.pressure.toNat
  let s := s.withInv { s.inv with lastMeter := s.now }
  let s := s.takeReports report
  let s := s.withDu { s.du with metered := s.meteredOutput }
  s.recover

/-- Order and setpoint of a train in a METER response (R130). -/
def State.orderBytes (s : State) (t : Train) : List Byte :=
  match (s.train t).state with
  | .starting => u8 1 ++ u32 0
  | .running => u8 0 ++ u32 (s.du.setpoint.get t)
  | .stopping => u8 2 ++ u32 0
  | _ => u8 0 ++ u32 0

/-- The fields of a METER response after the result code (section 10.9, R20, R130). -/
def State.meterFields (s : State) : List Byte :=
  s32 s.du.target ++ Train.all.flatMap s.orderBytes ++ u32 s.inv.mass ++ u32 s.inv.heat.t1 ++ u32 s.inv.heat.t2 ++
  u32 s.inv.heat.t3 ++ u16 s.estimatedPressure ++ u8 s.inv.drift ++ u32 s.inv.epoch.toNat

/-- What an ANCHOR sets: M from the pressure and each H_k from its figure, clamped (R13); the status, count and epoch (R14). -/
def State.anchored (s : State) (pressure : Nat) (heat : PerTier Word) : State :=
  s.withInv
    { s.inv with
      mass := inverseTable s.cfg.table pressure
      heat := PerTier.of fun k => min (heat.get k).toNat (s.cfg.tiers.get k).capacity
      status := .tracking
      drift := 0
      epoch := s.inv.epoch + 1 }

/-- Some value of an ANCHOR lies outside what the store can hold (R13). -/
def State.anchorClamps (s : State) (pressure : Nat) (heat : PerTier Word) : Bool :=
  decide (pressure < s.cfg.firstPressure) || decide (s.cfg.lastPressure < pressure) ||
  Tier.all.any fun k => decide ((s.cfg.tiers.get k).capacity < (heat.get k).toNat)

/-- The losses of a loss tick on an anchored inventory (R16). -/
def State.applyLosses (s : State) : State :=
  if s.inv.status.anchored then
    s.withInv
      { s.inv with
        heat := PerTier.of fun k => s.inv.heat.get k - s.inv.heat.get k * (s.cfg.tiers.get k).lossRate / 1000000
        mass := s.inv.mass - s.cfg.leakage }
  else s

/-- The losses of a loss tick; the next one is 60 device seconds later (R16, R38). -/
def State.takeLosses (s : State) : State := (s.withTb { s.tb with nextLoss := s.tb.nextLoss + 60 }).applyLosses

/-- The count of the dispatch tick at which the stale test is met: the test runs at each tick while settings are loaded and the flag
is FRESH (R17). Where the limit was reached before the settings were loaded or changed, the next tick meets it. -/
def State.staleDue (s : State) : Option Nat :=
  match s.settings with
  | none => none
  | some c =>
    if s.inv.metering = .fresh then
      some (max (s.inv.lastMeter + c.staleLimit) (if s.tb.phase = 0 then s.now else s.now + 1))
    else none

/-- Stale onset: the flag, INVENTORY (R17), the permit hold (R109) and the open record's mark (R18). -/
def State.becomeStale (s : State) : State :=
  (((s.withInv { s.inv with metering := .stale }).withTrc
    { s.trc with permitHold := some (s.now + s.cfg.permitHold) }).raise .tp .inventory).markRecord .setStale

end Sys2Proof.Machine
end

