-- ==== Sys2Proof/Machine/DispatchOps.lean ====
section
/-! DEFINITION. The computation of a dispatch tick (spec/06, R117 to R128) and the Settlement Log's part of a tick (R150). -/

namespace Sys2Proof.Machine

/-- E_cap or C_cap: the max kW of the installed trains of a kind that are RUNNING, STARTING or startable (R118). -/
def State.capability (s : State) (k : Kind) : Nat :=
  ((k.trains.filter fun t =>
      (s.trainCfg t).installed &&
        (decide ((s.train t).state = .running) || decide ((s.train t).state = .starting) || s.startable t)).map
    fun t => (s.trainCfg t).maxKw).sum

/-- The inventory clamp would hold a positive target at 0 (R119). -/
def State.dischargeBlocked (s : State) : Bool :=
  !s.inv.status.anchored || decide (s.inv.mass ≤ s.cfg.massFloor) ||
  Tier.all.any fun k =>
    decide (0 < (s.cfg.tiers.get k).qDischarge) && decide (s.inv.heat.get k ≤ (s.cfg.tiers.get k).minHeat)

/-- The inventory clamp would hold a negative target at 0 (R119). -/
def State.chargeBlocked (s : State) : Bool :=
  !s.inv.status.anchored || decide (s.cfg.massCeil ≤ s.inv.mass) ||
  Tier.all.any fun k =>
    decide (0 < (s.cfg.tiers.get k).qCharge) && decide ((s.cfg.tiers.get k).capacity ≤ s.inv.heat.get k)

/-- The requested target D0 (R117). -/
def State.requested (s : State) : Int := scheduledBase s.currentBlock + s.rsv.granted

/-- The capability clamp: D1 (R118). -/
def State.capabilityClamp (s : State) (d0 : Int) : Int :=
  hold (-(s.capability .compressor : Int)) (s.capability .turbine) d0

/-- The inventory clamp: D2 (R119). -/
def State.inventoryClamp (s : State) (d1 : Int) : Int :=
  if 0 < d1 then (if s.dischargeBlocked then 0 else d1)
  else if d1 < 0 then (if s.chargeBlocked then 0 else d1)
  else 0

/-- The rate clamp: D3 (R120). -/
def State.rateClamp (s : State) (d2 : Int) : Int :=
  hold (-(s.cfg.chargeCap : Int)) s.cfg.dischargeCap d2

/-- The discharge limit X_d and the charge limit X_c of the headroom (R120). -/
def State.dischargeLimit (s : State) : Nat :=
  if s.dischargeBlocked then 0 else min (s.capability .turbine) s.cfg.dischargeCap

def State.chargeLimit (s : State) : Nat :=
  if s.chargeBlocked then 0 else min (s.capability .compressor) s.cfg.chargeCap

/-- The clamps of a tick, with what they report: D3, the headroom, DERATED (R118 to R120). -/
def State.applyClamps (s : State) : State :=
  let d0 := s.requested
  let d3 := s.rateClamp (s.inventoryClamp (s.capabilityClamp d0))
  let spell := decide (d3 ≠ d0) && decide (s.rsv.granted ≠ 0)
  let newSpell := spell && !s.du.derateReported
  let s' := s.withDu
    { s.du with
      clamped := d3
      headroomUp := s.dischargeLimit - d3
      headroomDown := d3 + s.chargeLimit
      derateReported := spell }
  let s' := if d3 ≠ d0 then s'.markRecord .setDerated else s'
  if newSpell then s'.raise .gp .derated else s'

/-- The kind of a non-zero target (R121). -/
def kindOf (d : Int) : Kind := if 0 < d then .turbine else .compressor

/-- The conditions under which W is held at 0 (R121). -/
def State.changeoverHolds (s : State) (d3 : Int) : Bool :=
  decide (d3 ≠ 0) &&
  ((decide (s.du.previous ≠ 0) && decide (kindOf s.du.previous ≠ kindOf d3)) ||
    s.anyActive (kindOf d3).other ||
    (s.du.dwell.isSome && decide (s.du.dwellKind ≠ some (kindOf d3))))

/-- The working target W is formed from D3 (R121). -/
def State.formWorking (s : State) : State :=
  s.withDu { s.du with working := if s.changeoverHolds s.du.clamped then 0 else s.du.clamped }

/-- The demand of a kind (R123). -/
def demandOf (k : Kind) (w : Int) : Nat := if w ≠ 0 ∧ kindOf w = k then w.natAbs else 0

/-- The merit order of a kind (R114). -/
def State.merit (s : State) : Kind → List Train
  | .compressor => s.cfg.compressorOrder
  | .turbine => s.cfg.turbineOrder

/-- The installed trains of a kind in a state, in merit order (R123). -/
def State.inState (s : State) (k : Kind) (state : TrainState) : List Train :=
  (s.merit k).filter fun t => (s.trainCfg t).installed && decide ((s.train t).state = state)

/-- The installed startable trains of a kind, in merit order (R123). -/
def State.startables (s : State) (k : Kind) : List Train :=
  (s.merit k).filter fun t => (s.trainCfg t).installed && s.startable t

/-- The allocation list of a kind: RUNNING, STARTING, startable (R123). -/
def State.allocationList (s : State) (k : Kind) : List Train :=
  s.inState k .running ++ s.inState k .starting ++ s.startables k

/-- The smallest number of entries, from the front, whose max kW sum to at least the demand; the whole list where it does not reach
it (R123). -/
def requiredCount : Nat → List Nat → Nat
  | _, [] => 0
  | 0, _ => 0
  | demand, kw :: rest => 1 + requiredCount (demand - kw) rest

/-- The sum of max kW of trains. -/
def State.sumMax (s : State) (ts : List Train) : Nat := (ts.map fun t => (s.trainCfg t).maxKw).sum

/-- The start decision of a kind (R124). -/
def State.decideStart (s : State) (k : Kind) : State :=
  match s.startables k with
  | [] => s
  | t :: _ => if (s.inState k .starting).isEmpty then s.startTrain t else s

/-- The stop decision of a kind (R125). -/
def State.decideStop (s : State) (k : Kind) (demand : Nat) : State :=
  match (s.inState k .running).getLast? with
  | none => s
  | some t =>
    if (s.train t).minRun.expired ∧ demand ≤ s.sumMax (s.inState k .running).dropLast then s.stopTrain t else s

/-- The allocation of a kind: at most one START or one STOP is decided and passed to the Train Controller (R123 to R125). -/
def State.allocate (s : State) (k : Kind) : State :=
  let demand := demandOf k s.du.working
  let n := requiredCount demand ((s.allocationList k).map fun t => (s.trainCfg t).maxKw)
  let running := (s.inState k .running).length
  if running < n then s.decideStart k
  else if n < running then s.decideStop k demand
  else s

/-- Running capacity of a kind: the sum of max kW of its RUNNING trains (R126). -/
def State.runningCapacity (s : State) (k : Kind) : Nat :=
  s.sumMax (k.trains.filter fun t => decide ((s.train t).state = .running))

/-- D: W within the ramp, then within the running capacity of its own sign (R126). -/
def State.formTarget (s : State) : State :=
  let d := hold (s.du.previous - s.cfg.rampDown) (s.du.previous + s.cfg.rampUp) s.du.working
  let d := if 0 < d then min d (s.runningCapacity .turbine) else max d (-(s.runningCapacity .compressor : Int))
  s.withDu { s.du with target := d, previous := d }

/-- The RUNNING trains of a kind in merit order: those that share D (R127). -/
def State.sharers (s : State) (k : Kind) : List Train :=
  (s.merit k).filter fun t => decide ((s.train t).state = .running)

/-- A train's share of D before its clamp (R127 steps 1 and 2). -/
def State.share (s : State) (t : Train) : Nat :=
  let sharers := s.sharers t.kind
  let d := s.du.target.natAbs
  d / sharers.length + (if sharers.idxOf t < d % sharers.length then 1 else 0)

/-- The train shares D (R127). -/
def State.shares (s : State) (t : Train) : Bool :=
  decide ((s.train t).state = .running) && decide (s.du.target ≠ 0) && decide (kindOf s.du.target = t.kind)

/-- The setpoint of a train after a computing tick (R127). -/
def State.setpointFor (s : State) (t : Train) : Nat :=
  if s.shares t then max (s.trainCfg t).minStable (min (s.trainCfg t).maxKw (s.share t))
  else if (s.train t).state = .running then (s.trainCfg t).minStable
  else 0

/-- Some share was raised to min stable and the setpoints of the RUNNING trains exceed |D| (R127). -/
def State.minLoad (s : State) : Bool :=
  (Train.all.any fun t => s.shares t && decide (s.share t < (s.trainCfg t).minStable)) &&
  decide (s.du.target.natAbs <
    ((Train.all.filter fun t => decide ((s.train t).state = .running)).map s.setpointFor).sum)

/-- The setpoints of a computing tick (R127). -/
def State.setSetpoints (s : State) : State :=
  let s' := s.withDu { s.du with setpoint := PerTrain.of s.setpointFor }
  if s.minLoad then s'.markRecord .setMinLoad else s'

/-- A computing tick: base and clamps, changeover, allocation, ramp, setpoints (R116). -/
def State.computeTarget (s : State) : State :=
  ((((s.applyClamps.formWorking).allocate .compressor).allocate .turbine).formTarget).setSetpoints

/-- The dwell timer has run out at this count: it stops and the dwell kind becomes none (R122). -/
def State.endDwell (s : State) : State := s.withDu { s.du with dwell := none, dwellKind := none }

/-- The dwell's expiry at a tick is applied before the computation (R116). -/
def State.expireDwell (s : State) : State :=
  match s.du.dwell with
  | none => s
  | some due => if due ≤ s.now then s.endDwell else s

/-- The Dispatch Unit's part of a tick (R116, R131, R132). -/
def State.dispatchPart (s : State) : State :=
  let s := s.expireDwell
  if s.prof.mode = .service then
    (if s.inv.metering = .fresh then s.computeTarget else s)
  else s.withDu s.du.zeroed

/-- One second added to an open record (R150). -/
def State.recordSecond (s : State) (r : OpenRecord) : OpenRecord :=
  { r with
    scheduled := r.scheduled + scheduledBase s.currentBlock
    delivered := r.delivered + s.du.metered
    reserveUp := r.reserveUp + max s.rsv.granted 0
    reserveDown := r.reserveDown + max (-s.rsv.granted) 0
    ticks := r.ticks + 1
    flags :=
      { r.flags with
        atRisk := r.flags.atRisk || (s.currentBlock.map Block.atRisk).getD false
        stale := r.flags.stale || decide (s.inv.metering = .stale) } }

/-- The Settlement Log's part of a tick (R150). -/
def State.settlementPart (s : State) : State :=
  match s.slog.current with
  | none => s
  | some r => s.withSlog { s.slog with current := some (s.recordSecond r) }

/-- What the Dispatch Unit and the Settlement Log do at a tick (R116, R150). The MODEL's choice (log entry 2, DESIGN CHOICE): the two parts
are taken together, in this order, so that a boundary at the same instant comes before both or after both, never between them; R38 and
R152 leave each part's order to the boundary open. -/
def State.tickParts (s : State) : State := s.dispatchPart.settlementPart

end Sys2Proof.Machine
end

