-- ==== Sys2Proof/Machine/TimeOps.lean ====
section
/-! DEFINITION. Device time (spec/03, R38, R39): the events that fall due at dispatch ticks, the end of the present instant, the tick, the
passing of milliseconds, and the interval boundary. Log entry 2. -/

namespace Sys2Proof.Machine

/-- The events that fall due at a dispatch tick beside the Dispatch Unit's part: the loss tick (R16), the stale test (R17), the train
timers and start histories (R89, R91), the permit hold (R109), the dwell (R122), the grid link timer and the activation hold (R142,
R143), the background timer (R170). -/
inductive Event where
  | loss
  | stale
  | minDown (t : Train)
  | minRun (t : Train)
  | start (t : Train)
  | stop (t : Train)
  | cooldown (t : Train)
  | prune (t : Train)
  | permitHold
  | dwell
  | linkLoss
  | activationHold
  | background
deriving DecidableEq, Repr

/-- Every event, in the order in which those still due at an instant are taken before time passes (log entry 2). -/
def Event.all : List Event :=
  [.loss, .stale] ++
  (Train.all.flatMap fun t => [.minDown t, .minRun t, .start t, .stop t, .cooldown t, .prune t]) ++
  [.permitHold, .dwell, .linkLoss, .activationHold, .background]

/-- The count of the dispatch tick at which an event falls due; none while its timer is stopped. -/
def State.dueAt (s : State) : Event → Option Nat
  | .loss => some s.tb.nextLoss
  | .stale => s.staleDue
  | .minDown t => (s.train t).minDown.expiry
  | .minRun t => (s.train t).minRun.expiry
  | .start t => (s.train t).start.expiry
  | .stop t => (s.train t).stop.expiry
  | .cooldown t => (s.train t).cooldown.expiry
  | .prune t => (s.train t).history.head?.map (· + startHistoryAge)
  | .permitHold => s.trc.permitHold
  | .dwell => s.du.dwell
  | .linkLoss => s.rsv.linkTimer
  | .activationHold => s.rsv.holdTimer
  | .background => s.prof.background

/-- The effect of an event. -/
def State.fire (s : State) : Event → State
  | .loss => s.takeLosses
  | .stale => s.becomeStale
  | .minDown t => s.minDownRanOut t
  | .minRun t => s.minRunRanOut t
  | .start t => s.startRanOut t
  | .stop t => s.stopRanOut t
  | .cooldown t => s.cooldownRanOut t
  | .prune t => s.pruneHistory t
  | .permitHold => s.permitHoldRanOut
  | .dwell => s.endDwell
  | .linkLoss => s.loseLink
  | .activationHold => s.endActivationHold
  | .background => s.takeBackground

/-- The count has reached the tick at which an event falls due. -/
def State.isDue (s : State) (e : Event) : Bool :=
  match s.dueAt e with
  | none => false
  | some due => decide (due ≤ s.now)

/-- An event is taken if it is due. -/
def State.takeDue (s : State) (e : Event) : State := if s.isDue e then s.fire e else s

/-- Milliseconds in a device second. -/
def secondMillis : Nat := 1000

/-- The present instant is completed before time passes: a tick that an event has opened gets its other parts, and every event still due
is taken, so that no timer and no loss tick is passed (R38, R89). -/
def State.finishInstant (s : State) : State :=
  Event.all.foldl State.takeDue (if s.tb.tickOpen then (s.withTb { s.tb with tickOpen := false }).tickParts else s)

/-- `n` milliseconds of the present second pass, for the count and for the interval clock alike (R38, R39). -/
def State.passTime (s : State) (n : Nat) : State := (s.withTb { s.tb with phase := s.tb.phase + n }).runClock n

/-- The present second ends and the count increases by 1: the instant of a dispatch tick, after the boundary that may fall at the same
instant (R38, R39). `tickOpen` says whether the Dispatch Unit's part of the tick is still to be taken. -/
def State.nextTick (s : State) (tickOpen : Bool) : State :=
  let s := s.finishInstant
  let s := s.passTime (secondMillis - s.tb.phase)
  s.withTb { s.tb with count := s.tb.count + 1, phase := 0, tickOpen := tickOpen }

/-- The same instant, before the boundary that may fall at it (R39, R152). -/
def State.endSecond (s : State) : State :=
  let s := s.finishInstant
  let s := s.runClockUpTo (secondMillis - s.tb.phase)
  s.withTb { s.tb with count := s.tb.count + 1, phase := 0, tickOpen := false }

/-- The instant at which the Dispatch Unit takes its part: of the tick that an event has opened, or of the next one (R38, R116). -/
def State.tickInstant (s : State) : State :=
  if s.tb.tickOpen then s.withTb { s.tb with tickOpen := false } else s.endSecond

/-- A dispatch tick (R38, R116, R150). A boundary at its very instant is taken after it; INTERVAL_BOUNDARY takes it before (R152). -/
def State.takeTick (s : State) : State := s.tickInstant.tickParts.takeReached

/-- The state in which an event is taken: as it stands where the event is due; otherwise the opening of the next tick, where the event
falls due there and the present tick is complete. The parts of a tick are taken in either order (R38, R116). -/
def State.eventInstant (s : State) (e : Event) : Option State :=
  if s.isDue e then some s
  else if !s.tb.tickOpen && (s.nextTick true).isDue e then some (s.nextTick true)
  else none

/-- An event at its dispatch tick; an event that does not fall due gives none, and nothing changes (R89; log entry 3). -/
def State.atEvent (s : State) (e : Event) : State :=
  match s.eventInstant e with
  | none => s
  | some u => u.fire e

/-- The interval boundary, where the milliseconds reach L × 60,000 before the present second is over (R39). -/
def State.reachBoundary (s : State) : State :=
  let u := s.finishInstant
  match u.tb.clock with
  | none => s
  | some c =>
    let rest := u.intervalMillis - c.millis
    if u.tb.phase + rest ≤ secondMillis then u.passTime rest else s

/-- The frame at the front of an output queue, if it is a notice, has been sent (R179). -/
def dropSentNotice : List Frame → List Frame
  | f :: rest => if f.kind = noticeKind then rest else f :: rest
  | [] => []

/-- A notice at the front of the trade port's output queue is sent (R179; log entry 24). -/
def State.sendNotice (s : State) : State :=
  s.setPort .tp { s.port .tp with output := dropSentNotice (s.port .tp).output }

/-- A millisecond of device time in which no command arrives; the one that ends a second brings the dispatch tick (R38, R39). -/
def State.passMillisecond (s : State) : State :=
  let s := s.sendNotice
  if s.tb.phase + 1 < secondMillis then s.finishInstant.passTime 1 else s.takeTick

end Sys2Proof.Machine
end

