-- ==== Sys2Proof/Machine/Dispatching.lean ====
section
/-! DEFINITION. The meanings of DISPATCH_TICK and DWELL_EXPIRY (spec/06, spec/08). -/

namespace Sys2Proof.Machine

/-- DISPATCH_TICK: the present second ends and the count increases, unless an event of the same tick has brought that about already
(R38); the Dispatch Unit takes its part (R116) and the Settlement Log adds the second (R150). -/
def execDispatchTick (s : State) : Host.Outcome State Fault Refusal := .next s.takeTick

/-- DWELL_EXPIRY: the dwell timer stops and the dwell kind becomes none (R122). -/
def execDwellExpiry (s : State) : Host.Outcome State Fault Refusal := .next (s.atEvent .dwell)

end Sys2Proof.Machine
end

