-- ==== Sys2Proof/Machine/InventoryUnit.lean ====
section
/-! DEFINITION. The meanings of METER, ANCHOR, LOSS_TICK and STALE_ONSET (spec/01). -/

namespace Sys2Proof.Machine

/-- METER (R4): refused whole with BAD_FIELD, or worked in full and answered with the inventory and the orders (R20, R130). -/
def execMeter (report : MeterReport) (s : State) : Host.Outcome State Fault Refusal :=
  .next (s.takeFrame .pp fun s =>
    if s.meterValid report then
      let s := s.workMeter report
      s.respond .pp 0x10#8 .ok s.meterFields
    else s.respond .pp 0x10#8 .badField [])

/-- ANCHOR is taken in MAINTENANCE and SERVICE while settings are loaded (R12). -/
def State.mayAnchor (s : State) : Bool :=
  s.settings.isSome && (decide (s.prof.mode = .maintenance) || decide (s.prof.mode = .service))

/-- ANCHOR taken (R13, R14). The review it requests also answers a request that waited for the inventory to be anchored (R68). -/
def State.takeAnchor (s : State) (pressure : Nat) (heat : PerTier Word) : State :=
  let s' := s.anchored pressure heat
  let s' := if s.anchorClamps pressure heat then s'.raise .pp .clamp else s'
  (s'.raise .tp .inventory).requestReview

/-- ANCHOR (R12 to R14). -/
def execAnchor (pressure : Half) (heat : PerTier Word) (s : State) : Host.Outcome State Fault Refusal :=
  .next (s.takeFrame .pp fun s =>
    if s.mayAnchor then
      let s := s.takeAnchor pressure.toNat heat
      s.respond .pp 0x11#8 .ok
        (u32 s.inv.mass ++ u32 s.inv.heat.t1 ++ u32 s.inv.heat.t2 ++ u32 s.inv.heat.t3 ++ u32 s.inv.epoch.toNat)
    else s.respond .pp 0x11#8 .wrongMode [])

/-- LOSS_TICK: at each multiple of 60 device seconds, an anchored inventory loses heat and leakage (R16, R38). -/
def execLossTick (s : State) : Host.Outcome State Fault Refusal := .next (s.atEvent .loss)

/-- STALE_ONSET (R17, R18). -/
def execStaleOnset (s : State) : Host.Outcome State Fault Refusal := .next (s.atEvent .stale)

end Sys2Proof.Machine
end

