-- ==== Sys2Proof/Machine/ProfileRequests.lean ====
section
/-! DEFINITION. The meanings of the requests on the profile images, of a check's and a store's completion, and of the mode requests
(spec/09). -/

namespace Sys2Proof.Machine

/-- The image that a read of the working image shows: during a check, the one the check is examining (R162). -/
def State.shownWorking (s : State) : Image :=
  match s.prof.activity with
  | .verifying _ image => image
  | _ => s.prof.working

/-- PROFILE_READ (R162). -/
def execProfileRead (field image : Byte) (s : State) : Host.Outcome State Fault Refusal :=
  .next (s.takeFrame .pp fun s =>
    match ImageName.ofCode image with
    | none => s.respond .pp 0x15#8 .badField []
    | some name =>
      if ¬inRange 1 fieldCount field.toNat then s.respond .pp 0x15#8 .badField []
      else
        match name, s.prof.activity with
        | .stored, .storing _ => s.respond .pp 0x15#8 .busy []
        | .stored, _ => s.respond .pp 0x15#8 .ok (u8 field.toNat ++ u8 name.code ++ u32 (s.prof.stored.field field.toNat))
        | .working, _ =>
          s.respond .pp 0x15#8 .ok (u8 field.toNat ++ u8 name.code ++ u32 (s.shownWorking.field field.toNat)))

/-- A change of L or G is refused while the book holds a block, or an admission check is in flight (R62, R165). -/
def State.lengthRefusal (s : State) : Option Result :=
  if s.book.blocks ≠ [] then some .bookNotEmpty
  else if s.inFlight.isSome then some .busy
  else none

/-- The result of a PROFILE WRITE that is refused (R163, R62). -/
def State.writeRefusal (s : State) (field : Nat) (value : Word) : Option Result :=
  if ¬inRange 1 fieldCount field then some .badField
  else if s.prof.mode ≠ .maintenance then some .wrongMode
  else if s.profileBusy then some .busy
  else if (field = 2 ∨ field = 3) ∧ s.prof.working.word field ≠ value then s.lengthRefusal
  else none

/-- PROFILE_WRITE: the value is placed in the working image and profile-bad is set (R163). -/
def execProfileWrite (field : Byte) (value : Word) (s : State) : Host.Outcome State Fault Refusal :=
  .next (s.takeFrame .pp fun s =>
    match s.writeRefusal field.toNat value with
    | some refusal => s.respond .pp 0x16#8 refusal []
    | none =>
      let s := s.withProf { s.prof with working := s.prof.working.write field.toNat value, bad := true }
      s.respond .pp 0x16#8 .ok (u8 field.toNat ++ u32 (s.prof.working.field field.toNat)))

/-- WRONG_MODE outside MAINTENANCE, then BUSY while a check or a store is in progress (R164, R165, R168). -/
def State.maintenanceRefusal (s : State) : Option Result :=
  if s.prof.mode ≠ .maintenance then some .wrongMode
  else if s.profileBusy then some .busy
  else none

/-- PROFILE_STORE taken: the first of the three steps, with the values to be written taken now (R164). -/
def State.startStore (s : State) : State :=
  s.withProf
    { s.prof with stored := s.prof.stored.write fieldCount allOnes, activity := .storing s.prof.working }

/-- PROFILE_STORE (R164). -/
def execProfileStore (s : State) : Host.Outcome State Fault Refusal :=
  .next (s.takeFrame .pp fun s =>
    match s.maintenanceRefusal with
    | some refusal => s.respond .pp 0x17#8 refusal []
    | none => s.startStore.respond .pp 0x17#8 .started [])

/-- PROFILE_STORE_COMPLETION: the stored image equals the image taken at the start; the activity becomes IDLE and PROFILE is raised
(R164). -/
def execProfileStoreCompletion (s : State) : Host.Outcome State Fault Refusal :=
  .next
    (match s.prof.activity with
    | .storing source => (s.withProf { s.prof with stored := source, activity := .idle }).raise .pp .profile
    | _ => s)

/-- The result of a PROFILE LOAD that is refused (R165). -/
def State.loadRefusal (s : State) : Option Result :=
  match s.maintenanceRefusal with
  | some refusal => some refusal
  | none =>
    if s.prof.stored.word 2 ≠ s.prof.working.word 2 ∨ s.prof.stored.word 3 ≠ s.prof.working.word 3 then s.lengthRefusal
    else none

/-- PROFILE_LOAD: the copy replaces the working image and sets profile-bad, and a PLAIN check starts (R165). -/
def execProfileLoad (s : State) : Host.Outcome State Fault Refusal :=
  .next (s.takeFrame .pp fun s =>
    match s.loadRefusal with
    | some refusal => s.respond .pp 0x18#8 refusal []
    | none =>
      ((s.withProf { s.prof with working := s.prof.stored, bad := true }).startCheckOf .plain).respond .pp 0x18#8 .started [])

/-- PROFILE_CHECK: a PLAIN check of the working image starts; refused with BUSY while a check or a store is in progress (R166). In
CHECKING the post-reset check is in progress. -/
def execProfileCheck (s : State) : Host.Outcome State Fault Refusal :=
  .next (s.takeFrame .pp fun s =>
    if s.profileBusy ∨ s.prof.mode = .checking then s.respond .pp 0x19#8 .busy []
    else (s.startCheckOf .plain).respond .pp 0x19#8 .started [])

/-- PROFILE_CHECK_COMPLETION: the image taken at the check's start is examined (R158 to R161). -/
def execProfileCheckCompletion (s : State) : Host.Outcome State Fault Refusal :=
  .next
    (match s.prof.activity with
    | .verifying purpose image =>
      match failingField image with
      | none => s.checkPassed purpose image
      | some field => s.checkFailed purpose field
    | _ => s)

/-- PROFILE_MEMORY_FAULT: a working field changes; no cause is raised and profile-bad stays (R157). -/
def execProfileMemoryFault (field : Byte) (value : Word) (s : State) : Host.Outcome State Fault Refusal :=
  .next (s.withProf { s.prof with working := s.prof.working.write field.toNat value })

/-- ENTER_SERVICE: an ENTRY check starts (R168). -/
def execEnterService (s : State) : Host.Outcome State Fault Refusal :=
  .next (s.takeFrame .pp fun s =>
    match s.maintenanceRefusal with
    | some refusal => s.respond .pp 0x1A#8 refusal []
    | none => (s.startCheckOf .entry).respond .pp 0x1A#8 .started [])

/-- ENTER_MAINTENANCE: from SERVICE with no train active, and from FAULTED (R169). -/
def execEnterMaintenance (s : State) : Host.Outcome State Fault Refusal :=
  .next (s.takeFrame .pp fun s =>
    match s.prof.mode with
    | .checking => s.respond .pp 0x1B#8 .wrongMode []
    | .maintenance => s.respond .pp 0x1B#8 .wrongMode []
    | .faulted => (s.setMode .maintenance).respond .pp 0x1B#8 .ok []
    | .service =>
      if s.anyActive .compressor || s.anyActive .turbine then s.respond .pp 0x1B#8 .trainActive []
      else ((s.setMode .maintenance).leaveService).respond .pp 0x1B#8 .ok [])

/-- BACKGROUND_CHECK: the timer is loaded again, and a PLAIN check starts if the activity is IDLE (R170). -/
def execBackgroundCheck (s : State) : Host.Outcome State Fault Refusal := .next (s.atEvent .background)

end Sys2Proof.Machine
end

