-- ==== Sys2Proof/Machine/Schedule.lean ====
section
/-! DEFINITION. The meanings of the trade port's requests on the clock, the book, the position and the settlement ring, and of the
interval boundary (spec/02, 03 and 08). -/

namespace Sys2Proof.Machine

/-- The result of a CLOCK SET that is refused (R42). -/
def State.clockSetRefusal (s : State) (interval millis : Nat) : Option Result :=
  match s.settings with
  | none => some .wrongMode
  | some c =>
    if s.tb.clock.isSome then some .clockLocked
    else if interval = 0 ∨ lastInterval < interval ∨ c.intervalLength * 60000 ≤ millis then some .badField
    else none

/-- The ring without the records at or above an interval (R154). -/
def trimRing (ring : List ClosedRecord) (interval : Nat) : List ClosedRecord :=
  ring.filter fun r => decide (r.opened.interval < interval)

/-- CLOCK SET taken: the clock is SET (R42), the ring is trimmed (R154), the PARTIAL record opens (R149), and a review that waited
for the clock starts (R68). -/
def State.takeClockSet (s : State) (interval millis : Nat) : State :=
  let s := s.withTb { s.tb with clock := some { interval := interval, millis := millis } }
  let s := s.withSlog { s.slog with ring := trimRing s.slog.ring interval }
  (s.openRecord true).startPendingReview

/-- The milliseconds into the current interval; 0 while the clock is UNSET (R41). -/
def State.currentMillis (s : State) : Nat := (s.tb.clock.map Clock.millis).getD 0

/-- CLOCK_SET (R42). -/
def execClockSet (interval millis : Word) (s : State) : Host.Outcome State Fault Refusal :=
  .next (s.takeFrame .tp fun s =>
    match s.clockSetRefusal interval.toNat millis.toNat with
    | some refusal => s.respond .tp 0x20#8 refusal []
    | none =>
      let s := s.takeClockSet interval.toNat millis.toNat
      s.respond .tp 0x20#8 .ok (u32 s.currentInterval ++ u32 s.currentMillis))

/-- The largest correction, ms (R43). -/
def maxTrim : Int := 2000

/-- The correction a trim applies: a backward trim stops at the start of the interval (R43, R44). -/
def appliedTrim (millis : Nat) (correction : Int) : Int := max correction (-(millis : Int))

/-- A trim taken: forward past the end of the interval it takes the boundary, and the rest counts in the new interval; otherwise the
milliseconds move (R43, R44). -/
def State.takeTrim (s : State) (correction : Int) : State :=
  match s.tb.clock with
  | none => s
  | some c =>
    let millis := (c.millis + appliedTrim c.millis correction).toNat
    if 0 < correction ∧ s.intervalMillis ≤ millis then s.boundary (millis - s.intervalMillis)
    else s.withTb { s.tb with clock := some { c with millis := millis } }

/-- CLOCK_TRIM (R43, R44). -/
def execClockTrim (correction : Half) (s : State) : Host.Outcome State Fault Refusal :=
  .next (s.takeFrame .tp fun s =>
    match s.tb.clock with
    | none => s.respond .tp 0x21#8 .clockUnset []
    | some c =>
      if correction.toInt < -maxTrim ∨ maxTrim < correction.toInt then s.respond .tp 0x21#8 .badField []
      else
        let s := s.takeTrim correction.toInt
        s.respond .tp 0x21#8 .ok
          (s16 (appliedTrim c.millis correction.toInt) ++ u32 s.currentInterval ++ u32 s.currentMillis))

/-- Two runs of intervals share at least one interval (R48, R54 step 8). -/
def Terms.overlaps (a b : Terms) : Bool := decide (a.first ≤ b.last) && decide (b.first ≤ a.last)

/-- The most blocks the book holds (R48). -/
def maxBlocks : Nat := 64

/-- The pre-checks that judge a candidate whose fields are good, from step 6 on (R54). -/
def State.candidateRefusal (s : State) (b : Terms) : Option Result :=
  if b.first < s.gate then some .gateClosed
  else if s.currentInterval + (horizonLength - 1) < b.last then some .horizon
  else if s.book.blocks.any fun x => x.terms.overlaps b then some .overlap
  else if (s.book.blocks.any fun x => decide (x.terms.reference = b.reference)) ||
      decide (s.inFlight.map Terms.reference = some b.reference) then some .duplicateRef
  else if maxBlocks ≤ s.book.blocks.length then some .bookFull
  else if s.inFlight.isSome then some .busy
  else none

/-- The pre-checks of R54, in order: the result that refuses the SUBMIT, or the candidate that passes them all. -/
def State.preCheck (s : State) (f : BlockFields) : Except Result Terms :=
  if s.prof.mode ≠ .service then .error .wrongMode
  else if s.tb.clock = none then .error .clockUnset
  else if s.inv.status = .unanchored then .error .notAnchored
  else if s.inv.metering = .stale then .error .stale
  else
    match Terms.ofFields f with
    | none => .error .badField
    | some b =>
      match s.candidateRefusal b with
      | some refusal => .error refusal
      | none => .ok b

/-- SUBMIT (R54, R55): refused at a pre-check, or handed over; in NOTIFY mode it is answered with STARTED (R81), in HOLD mode its
response stays owed until the check ends (R80). -/
def execSubmit (b : BlockFields) (s : State) : Host.Outcome State Fault Refusal :=
  .next (s.takeFrame .tp fun s =>
    match s.preCheck b with
    | .error refusal => s.respond .tp 0x22#8 refusal []
    | .ok candidate =>
      let s := s.handOver candidate
      match s.prj.checkMode with
      | .hold => s
      | .notify => s.respond .tp 0x22#8 .started (u16 candidate.reference))

/-- The block of the book that has a reference. -/
def State.blockOf (s : State) (reference : Nat) : Option Block :=
  s.book.blocks.find? fun b => decide (b.terms.reference = reference)

/-- A block leaves the book: the revision increases and a review is requested (R58). -/
def State.removeBlock (s : State) (reference : Nat) : State :=
  (s.withBook
    { blocks := s.book.blocks.eraseP fun b => decide (b.terms.reference = reference)
      revision := s.book.revision + 1 }).requestReview

/-- WITHDRAW (R57, R58). -/
def execWithdraw (reference : Half) (s : State) : Host.Outcome State Fault Refusal :=
  .next (s.takeFrame .tp fun s =>
    match s.blockOf reference.toNat with
    | none => s.respond .tp 0x23#8 .notFound []
    | some b =>
      if s.inFlight.isSome then s.respond .tp 0x23#8 .busy []
      else if b.terms.first < s.gate then s.respond .tp 0x23#8 .gateClosed []
      else
        (s.removeBlock reference.toNat).respond .tp 0x23#8 .ok
          (b.terms.bytes ++ yesNo b.atRisk ++ yesNo (b.terms.covers s.currentInterval)))

/-- The number of blocks, the revision and the current interval, which every BOOK READ that is not refused carries (R59). -/
def State.bookBytes (s : State) : List Byte :=
  u8 s.book.blocks.length ++ u16 s.book.revision.toNat ++ u32 s.currentInterval

/-- BOOK_READ (R59). -/
def execBookRead (ordinal : Byte) (s : State) : Host.Outcome State Fault Refusal :=
  .next (s.takeFrame .tp fun s =>
    if 63 < ordinal.toNat then s.respond .tp 0x26#8 .badField []
    else
      match s.book.blocks[ordinal.toNat]? with
      | none => s.respond .tp 0x26#8 .endOfBook s.bookBytes
      | some b =>
        s.respond .tp 0x26#8 .ok
          (b.terms.bytes ++ yesNo b.atRisk ++ yesNo (s.tb.clock.isSome && b.terms.covers s.currentInterval) ++ s.bookBytes))

/-- The two position energies with their limits: 0 and NONE while UNANCHORED (R27, R28). -/
def State.positions (s : State) : (Nat × PositionLimit) × (Nat × PositionLimit) :=
  if s.inv.status.anchored then
    (dischargePosition s.cfg s.inv.status.margin s.inv.mass s.inv.heat,
      chargePosition s.cfg s.inv.status.margin s.inv.mass s.inv.heat)
  else ((0, .none), (0, .none))

/-- The fields of a POSITION response, in the order of R28. -/
def State.positionFields (s : State) : List Byte :=
  u32 s.positions.1.1 ++ u8 s.positions.1.2.code ++ u32 s.positions.2.1 ++ u8 s.positions.2.2.code ++
  u8 s.inv.status.margin ++ u32 s.inv.mass ++ u32 s.inv.heat.t1 ++ u32 s.inv.heat.t2 ++ u32 s.inv.heat.t3

/-- POSITION (R28). -/
def execPosition (s : State) : Host.Outcome State Fault Refusal :=
  .next (s.takeFrame .tp fun s => s.respond .tp 0x27#8 .ok s.positionFields)

/-- The bounds of the ring and the open interval, which every RECORD READ that is not refused carries (R153). -/
def State.ringBytes (s : State) : List Byte :=
  u8 s.slog.ring.length ++ u32 ((s.slog.ring.head?.map fun r => r.opened.interval).getD 0) ++
  u32 ((s.slog.ring.getLast?.map fun r => r.opened.interval).getD 0) ++
  u32 ((s.slog.current.map OpenRecord.interval).getD 0)

/-- RECORD_READ (R153). -/
def execRecordRead (interval : Word) (s : State) : Host.Outcome State Fault Refusal :=
  .next (s.takeFrame .tp fun s =>
    if interval.toNat = 0 ∨ lastInterval < interval.toNat then s.respond .tp 0x28#8 .badField []
    else
      match s.slog.ring.find? fun r => decide (r.opened.interval = interval.toNat) with
      | none => s.respond .tp 0x28#8 .notFound s.ringBytes
      | some r => s.respond .tp 0x28#8 .ok (r.bytes ++ s.ringBytes))

/-- INTERVAL_BOUNDARY: the milliseconds reach L × 60,000 within the present device second, and the boundary is taken (R39). Where they
do not, or the clock is UNSET, there is none now, and nothing changes (log entry 3). -/
def execIntervalBoundary (s : State) : Host.Outcome State Fault Refusal := .next s.reachBoundary

end Sys2Proof.Machine
end

