-- ==== Sys2Proof/Machine/ProjectionEngine.lean ====
section
/-! DEFINITION. The meanings of CHECK_MODE, ABANDON, CHECK_COMPLETION and REVIEW_COMPLETION (spec/04). -/

namespace Sys2Proof.Machine

/-- CHECK_MODE (R82). -/
def execCheckMode (code : Byte) (s : State) : Host.Outcome State Fault Refusal :=
  .next (s.takeFrame .tp fun s =>
    match CheckMode.ofCode code with
    | none => s.respond .tp 0x25#8 .badField []
    | some m =>
      if s.inFlight.isSome then s.respond .tp 0x25#8 .busy []
      else
        let s := s.withPrj { s.prj with checkMode := m, defaultApplied := true }
        s.respond .tp 0x25#8 .ok (u8 m.code))

/-- The check in flight ends without its completion: a running one gives up the engine, a waiting one is removed (R83). -/
def State.dropCheck (s : State) : State :=
  match s.prj.running with
  | some (.check _ _) => s.passOn
  | _ => s.withPrj { s.prj with waiting := none }

/-- ABANDON: in NOTIFY mode the check in flight ends with ABANDONED; the response is handed over ahead of the notice (R83). -/
def execAbandon (s : State) : Host.Outcome State Fault Refusal :=
  .next (s.takeFrame .tp fun s =>
    match s.inFlight, s.prj.checkMode with
    | some candidate, .notify =>
      let s := s.dropCheck
      (s.respond .tp 0x24#8 .ok (u16 candidate.reference)).reportEnd candidate .abandoned none
    | _, _ => s.respond .tp 0x24#8 .noCheck [])

/-- The completion tests of an admission check, in order, on the state as it stands and the walk's first failing interval (R72,
R73). -/
def State.checkOutcome (s : State) (candidate : Terms) (snap : Snapshot) (f : Option Failure) : Result :=
  if s.prof.mode ≠ .service then .wrongMode
  else if s.inv.epoch ≠ snap.epoch ∨ s.trc.generation ≠ snap.generation ∨ s.inv.status.margin ≠ snap.margin then .changed
  else if s.inv.metering = .stale then .stale
  else if s.tb.clock = none ∨ candidate.first < s.gate then .gateClosed
  else
    match f with
    | some x => if candidate.covers x.interval then .refused else .accepted
    | none => .accepted

/-- The failure that a report carries: for REFUSED and ACCEPTED the walk's, for every other result none (R79). -/
def reportedFailure (result : Result) (f : Option Failure) : Option Failure :=
  match result with
  | .refused => f
  | .accepted => f
  | _ => none

/-- An ACCEPTED candidate is inserted and the whole book is marked (R51, R74). -/
def State.acceptBlock (s : State) (candidate : Terms) (f : Option Failure) : State :=
  s.setMarks (insertBlock { terms := candidate, atRisk := false } s.book.blocks) true f

/-- An admission check completes: its result, the insertion, the engine passed on, the report (R72). -/
def State.completeCheck (s : State) (candidate : Terms) (snap : Snapshot) : State :=
  let f := snap.walk (some candidate)
  let result := s.checkOutcome candidate snap f
  let s := if result = .accepted then s.acceptBlock candidate f else s
  s.passOn.reportEnd candidate result (reportedFailure result f)

/-- CHECK_COMPLETION (R72); with no admission check running there is no completion. -/
def execCheckCompletion (s : State) : Host.Outcome State Fault Refusal :=
  .next
    (match s.prj.running with
    | some (.check candidate snap) => s.completeCheck candidate snap
    | _ => s)

/-- REVIEW_COMPLETION: the marks are set from the review's walk and the engine is passed on (R76); with no review running there is no
completion. -/
def execReviewCompletion (s : State) : Host.Outcome State Fault Refusal :=
  .next
    (match s.prj.running with
    | some (.review snap) => (s.setMarks s.book.blocks false (snap.walk none)).passOn
    | _ => s)

end Sys2Proof.Machine
end

