-- ==== Sys2Proof/Machine/ReserveUnit.lean ====
section
/-! DEFINITION. The meanings of ACTIVATE, POLL, GRID_LINK_LOSS and ACTIVATION_HOLD_EXPIRY (spec/07). -/

namespace Sys2Proof.Machine

/-- The reference of the current block, or 0 (R137, R145). -/
def State.currentReference (s : State) : Nat := (s.currentBlock.map fun b => b.terms.reference).getD 0

/-- The band, the block and the headroom, as ACTIVATE and POLL carry them (R137, R145). -/
def State.bandBytes (s : State) : List Byte :=
  u32 s.band.down ++ u32 s.band.up ++ u16 s.currentReference ++ s32 s.du.headroomUp ++ s32 s.du.headroomDown

/-- ACTIVATE (R136, R137). -/
def execActivate (requested : Word) (s : State) : Host.Outcome State Fault Refusal :=
  .next (s.takeFrame .gp fun s =>
    if s.prof.mode = .service then
      let s := s.withRsv { s.rsv with granted := s.band.clamp requested.toInt }
      s.respond .gp 0x30#8 .ok
        (s32 requested.toInt ++ s32 s.rsv.granted ++ s.bandBytes ++ u32 s.currentInterval)
    else s.respond .gp 0x30#8 .wrongMode [])

/-- POLL: the prior link state is the one before the POLL frame acted on the link (R145). -/
def execPoll (s : State) : Host.Outcome State Fault Refusal :=
  .next (s.takeFrame .gp fun t =>
    t.respond .gp 0x31#8 .ok
      (u8 s.rsv.link.code ++ u16 t.rsv.lossCount.toNat ++ s32 t.rsv.granted ++ t.bandBytes ++ s32 t.du.target ++
        s32 t.du.metered ++ u32 t.currentInterval))

/-- GRID_LINK_LOSS (R142). -/
def execGridLinkLoss (s : State) : Host.Outcome State Fault Refusal := .next (s.atEvent .linkLoss)

/-- ACTIVATION_HOLD_EXPIRY: the hold stops and g is set to 0 (R143). -/
def execActivationHoldExpiry (s : State) : Host.Outcome State Fault Refusal := .next (s.atEvent .activationHold)

end Sys2Proof.Machine
end

