-- ==== Sys2Proof/Machine/Resets.lean ====
section
/-! DEFINITION. The meanings of the two resets (R3, R41, R63, R65, R84, R87, R115, R134, R148, R164, R167, R173, R187). -/

namespace Sys2Proof.Machine

/-- The stored image a reset finds: as it was, except after a store that the reset interrupts (R164, R167). -/
def State.storedAtReset (s : State) : Image :=
  match s.prof.activity with
  | .storing source => interruptedStore s.draws source s.prof.stored
  | _ => s.prof.stored

/-- The free values drawn once a reset has ended a store. -/
def State.drawsAtReset (s : State) : Nat :=
  match s.prof.activity with
  | .storing _ => s.draws + 1
  | _ => s.draws

/-- A reset begins: RSTN is low, or the supply rises, and the output pins take the levels of R187 until the reset ends. -/
def State.holdReset (s : State) : State := s.withResetHeld true

/-- A reset ends: every block takes its reset values around the working image `working`, the trip inputs are sampled, and the pins follow
the blocks again (R87, R167, R187). -/
def State.endReset (s : State) (working : Image) (lines : PerTrain Bool) : State :=
  State.afterReset working s.storedAtReset lines s.drawsAtReset s.pending

/-- POWER_ON_RESET: the stored image is copied into the working image (R167, R187). -/
def execPowerOnReset (lines : PerTrain Bool) (s : State) : Host.Outcome State Fault Refusal :=
  .next (s.holdReset.endReset s.storedAtReset lines)

/-- PIN_RESET: a low on RSTN of at least 10 µs; a shorter low is ignored. The working image is kept (R167, R187). -/
def execPinReset (lowMicros : Nat) (lines : PerTrain Bool) (s : State) : Host.Outcome State Fault Refusal :=
  .next (if 10 ≤ lowMicros then s.holdReset.endReset s.prof.working lines else s)

end Sys2Proof.Machine
end

