-- ==== Sys2Proof/WellFormed.lean ====
section
/-! DEFINITION. Which commands are events the part can meet: the event of a row whose own words exclude some operands. A
command that fails its check names no event; the machine leaves its state as it is (log entry 3). -/

namespace Sys2Proof

/-- The checks on a command's operands that need no state. -/
def Instr.wellFormed : Instr → Bool
  | .pinReset lowMicros _ => decide (10 ≤ lowMicros)
  | .unknownKind p kind => (catalogue p kind).isNone
  | .badLength p kind length =>
    match catalogue p kind with
    | none => false
    | some n => decide (length.toNat ≠ n) && decide (length.toNat ≤ maxPayload)
  | .declareAvailable _ declaration _ => decide (declaration ≠ 2#8)
  | .profileMemoryFault field _ => decide (1 ≤ field.toNat) && decide (field.toNat ≤ 158)
  | _ => true

end Sys2Proof
end

