-- ==== Sys2Proof/Machine/StationPorts.lean ====
section
/-! DEFINITION. The meanings of the frames and requests that every port has: FRAME_DISCARD, UNKNOWN_KIND, BAD_LENGTH, RESPONSE_SENT,
STATUS, CAUSES, ENABLES, CLEAR_LINK (spec/10). -/

namespace Sys2Proof.Machine

/-- How far the bytes since a break have come (R175, R176): the frame is still arriving, it is damaged (a length byte above 120, or a
wrong CRC byte), or it is complete and good. -/
inductive Received where
  | arriving | damaged | complete
deriving DecidableEq, Repr

def Received.of (bytes : List Byte) : Received :=
  match bytes with
  | kind :: len :: rest =>
    if maxPayload < len.toNat then .damaged
    else if rest.length ≤ len.toNat then .arriving
    else if rest.drop len.toNat = [crc8 (kind :: len :: rest.take len.toNat)] then .complete
    else .damaged
  | _ => .arriving

/-- The assembler takes what the receive line brings (R175, R176, R177 step 1). A frame is complete at its CRC byte, which returns the
assembler to WAITING. A good one with no response owed is discarded by nothing: its request is the event of another row (log entry
17). -/
def State.takeLine (p : Port) (s : State) (event : LineEvent) : State :=
  match (s.port p).assembler, event with
  | _, .brk => s.takeBreak p
  | .waiting, _ => s
  | .inFrame _, .parityError => s.discard p .waiting
  | .inFrame _, .noStopBit => s.discard p .waiting
  | .inFrame bytes, .gap => if bytes = [] then s else s.discard p .waiting
  | .inFrame bytes, .byte b =>
    match Received.of (bytes ++ [b]) with
    | .arriving => s.setAssembler p (.inFrame (bytes ++ [b]))
    | .damaged => s.discard p .waiting
    | .complete => if (s.port p).owed then s.discard p .waiting else s.setAssembler p .waiting

/-- FRAME_DISCARD: the assembler takes what the line brings, and each frame discarded is counted once (R175 to R177, R182). -/
def execFrameDiscard (p : Port) (line : List LineEvent) (s : State) : Host.Outcome State Fault Refusal :=
  .next (line.foldl (State.takeLine p) s)

/-- UNKNOWN_KIND: answered in a frame of kind 0xFF, not counted (R177 step 2). -/
def execUnknownKind (p : Port) (kind : Byte) (s : State) : Host.Outcome State Fault Refusal :=
  .next
    (if (Instr.unknownKind p kind).wellFormed then
      s.takeFrame p fun s => s.answer p unknownResponseKind .unknownKind []
    else s)

/-- BAD_LENGTH: counted as a discard is, and answered without acting on the request (R177 step 3). -/
def execBadLength (p : Port) (kind length : Byte) (s : State) : Host.Outcome State Fault Refusal :=
  .next
    (if (Instr.badLength p kind length).wellFormed then
      s.takeFrame p fun s => (s.countError p).respond p kind .badLength []
    else s)

/-- An output queue once its first response has been sent: the notices ahead of it have been sent before it (R179). -/
def afterResponse : List Frame → List Frame
  | [] => []
  | f :: rest => if f.kind = noticeKind then afterResponse rest else rest

/-- The queue holds a response. -/
def holdsResponse (output : List Frame) : Bool := output.any fun f => decide (f.kind ≠ noticeKind)

/-- RESPONSE_SENT: the last byte of the owed response has been sent, and the port again takes frames (R179). A response that has not
been handed to the queue, as a held SUBMIT's has not (R80), cannot have been sent. -/
def execResponseSent (p : Port) (s : State) : Host.Outcome State Fault Refusal :=
  .next
    (if (s.port p).owed && holdsResponse (s.port p).output then
      s.setPort p { s.port p with owed := false, output := afterResponse (s.port p).output }
    else s)

/-- The fields of a STATUS response, in the order of R186 (R172). -/
def State.statusFields (s : State) (p : Port) : List Byte :=
  u16 s.prof.siteCode ++ u8 s.prof.mode.code ++ yesNo s.prof.bad ++ u8 s.prof.lastCheck.code ++
  u8 s.prof.failingField ++ u8 s.prof.activity.code ++ u8 (clockStateCode s.tb.clock) ++ u32 s.currentInterval ++
  [(s.port .pp).causes, (s.port .tp).causes, (s.port .gp).causes] ++ u8 (s.port p).errors ++ u8 s.errorLimit ++
  (if p = .tp then u8 s.prj.checkMode.code else [])

/-- STATUS (R186). -/
def execStatus (p : Port) (s : State) : Host.Outcome State Fault Refusal :=
  .next (s.takeFrame p fun s => s.respond p 0x01#8 .ok (s.statusFields p))

/-- CAUSES: the response shows the cause byte, and every flag shown set is then cleared (R184). -/
def execCauses (p : Port) (s : State) : Host.Outcome State Fault Refusal :=
  .next (s.takeFrame p fun s =>
    let shown := (s.port p).causes
    let s := s.respond p 0x02#8 .ok [shown]
    s.setPort p { s.port p with causes := (s.port p).causes &&& ~~~shown })

/-- ENABLES: bits for which the port has no cause are ignored; the response carries the enables in force (R184). -/
def execEnables (p : Port) (mask : Byte) (s : State) : Host.Outcome State Fault Refusal :=
  .next (s.takeFrame p fun s =>
    let s := s.setPort p { s.port p with enables := mask &&& causeBits p }
    s.respond p 0x03#8 .ok [s.enablesInForce p])

/-- CLEAR_LINK: the error count as it stood, then 0 (R182). -/
def execClearLink (p : Port) (s : State) : Host.Outcome State Fault Refusal :=
  .next (s.takeFrame p fun s =>
    let s := s.respond p 0x04#8 .ok (u8 (s.port p).errors)
    s.setPort p { s.port p with errors := 0 })

end Sys2Proof.Machine
end

