-- ==== Sys2Proof/Machine/Trains.lean ====
section
/-! DEFINITION. The meanings of the Train Controller's requests and events (spec/05). -/

namespace Sys2Proof.Machine

/-- DECLARE AVAILABLE taken: the history is seeded, the train enters STOPPED with min-down loaded (R92). -/
def State.declare (s : State) (t : Train) (starts : Nat) : State :=
  let c := s.trainCfg t
  (s.setTrain t
    { (s.train t).leave with
      state := .stopped
      history := List.replicate (min starts c.startsPerDay) s.now
      minDown := .load c.minDown s.now }).changeAvailability

/-- DECLARE_AVAILABLE: BAD_FIELD for no train and for a declaration code that is neither 1 nor 2 (R178), TRAIN_ACTIVE unless the
train is OFFLINE (R92). Code 2 is the row DECLARE_OFFLINE's, and names no event here. -/
def execDeclareAvailable (train declaration starts : Byte) (s : State) : Host.Outcome State Fault Refusal :=
  .next
    (if (Instr.declareAvailable train declaration starts).wellFormed then
      s.takeFrame .pp fun s =>
        match Train.ofNumber train with
        | none => s.respond .pp 0x12#8 .badField []
        | some t =>
          if declaration ≠ 1#8 then s.respond .pp 0x12#8 .badField []
          else if (s.train t).state = .offline then
            let s := s.declare t starts.toNat
            s.respond .pp 0x12#8 .ok (u8 (s.train t).state.code ++ u8 (s.train t).history.length)
          else s.respond .pp 0x12#8 .trainActive []
    else s)

/-- DECLARE_OFFLINE: taken when the train is STOPPED; the start history is kept (R93). -/
def execDeclareOffline (train : Byte) (s : State) : Host.Outcome State Fault Refusal :=
  .next (s.takeFrame .pp fun s =>
    match Train.ofNumber train with
    | none => s.respond .pp 0x12#8 .badField []
    | some t =>
      if (s.train t).state = .stopped then
        let s := (s.setTrain t { (s.train t).leave with state := .offline }).changeAvailability
        s.respond .pp 0x12#8 .ok (u8 TrainState.offline.code)
      else s.respond .pp 0x12#8 .trainActive [])

/-- RELEASE: release-taken is set and the conditions are tested at once (R106, R107). -/
def execRelease (train : Byte) (s : State) : Host.Outcome State Fault Refusal :=
  .next (s.takeFrame .pp fun s =>
    match Train.ofNumber train with
    | none => s.respond .pp 0x13#8 .badField []
    | some t =>
      if (s.train t).state = .locked then
        let s := (s.setTrain t { s.train t with releaseTaken := true }).tryRelease t
        s.respond .pp 0x13#8 .ok (u8 (s.train t).state.code)
      else s.respond .pp 0x13#8 .notLocked [])

/-- The fields of a TRAIN READ response, in the order of R112. -/
def State.trainFields (s : State) (t : Train) : List Byte :=
  let r := s.train t
  u8 t.kind.code ++ u8 r.state.code ++ orZero 1 (r.reason.map TripReason.code) ++
  r.minDown.bytes s.now ++ r.minRun.bytes s.now ++ r.start.bytes s.now ++ r.stop.bytes s.now ++
  r.cooldown.bytes s.now ++ yesNo r.releaseTaken ++ u8 r.history.length ++ orAbsent 6 r.history.head? ++
  u8 (s.trainCfg t).startsPerDay ++ orZero 1 (r.reported.map Reported.code) ++ u32 r.output ++ yesNo r.lineHigh ++
  u8 r.sensitivity.code ++ yesNo (s.permit t) ++ u32 s.trc.generation.toNat ++ holdBytes s.now s.trc.permitHold

/-- TRAIN_READ (R112). -/
def execTrainRead (train : Byte) (s : State) : Host.Outcome State Fault Refusal :=
  .next (s.takeFrame .pp fun s =>
    match Train.ofNumber train with
    | none => s.respond .pp 0x14#8 .badField []
    | some t => s.respond .pp 0x14#8 .ok (s.trainFields t))

/-- MIN_DOWN_EXPIRY: the flag is set and the timer stops (R89). -/
def execMinDownExpiry (t : Train) (s : State) : Host.Outcome State Fault Refusal := .next (s.atEvent (.minDown t))

/-- MIN_RUN_EXPIRY: the flag is set and the timer stops (R89). -/
def execMinRunExpiry (t : Train) (s : State) : Host.Outcome State Fault Refusal := .next (s.atEvent (.minRun t))

/-- START_TIMER_EXPIRY: a STARTING train is tripped with reason START_TIMEOUT (R90). -/
def execStartTimerExpiry (t : Train) (s : State) : Host.Outcome State Fault Refusal := .next (s.atEvent (.start t))

/-- STOP_TIMER_EXPIRY: a STOPPING train is tripped with reason STOP_TIMEOUT (R90). -/
def execStopTimerExpiry (t : Train) (s : State) : Host.Outcome State Fault Refusal := .next (s.atEvent (.stop t))

/-- COOLDOWN_EXPIRY: the flag is set, RELEASE_READY is raised and release is tested (R89, R105, R107). -/
def execCooldownExpiry (t : Train) (s : State) : Host.Outcome State Fault Refusal := .next (s.atEvent (.cooldown t))

/-- START_HISTORY_PRUNE: entries whose age has reached 86,400 s leave the front of the list (R91). -/
def execStartHistoryPrune (t : Train) (s : State) : Host.Outcome State Fault Refusal := .next (s.atEvent (.prune t))

/-- PERMIT_HOLD_EXPIRY: the hold ends and every active train is tripped with reason LINK (R109). -/
def execPermitHoldExpiry (s : State) : Host.Outcome State Fault Refusal := .next (s.atEvent .permitHold)

/-- TRIP_FALLING_EDGE: the sampled level passes from high to low (R100, R101). -/
def execTripFallingEdge (t : Train) (s : State) : Host.Outcome State Fault Refusal :=
  .next (if (s.train t).lineHigh then s.fallingEdge t else s)

/-- TRIP_RISING_EDGE: the sampled level passes from low to high (R100, R103). -/
def execTripRisingEdge (t : Train) (s : State) : Host.Outcome State Fault Refusal :=
  .next (if (s.train t).lineHigh then s else s.risingEdge t)

end Sys2Proof.Machine
end

