-- ==== Sys2Proof/Machine/Dispatch.lean ====
section
/-! DEFINITION. One arm for each row of spec/opcode_table.json: a direct call of the row's meaning. -/

namespace Sys2Proof.Machine

/-- What a command does to everything but the queue. -/
def exec (i : Instr) (s : State) : Host.Outcome State Fault Refusal :=
  match i with
  | .powerOnReset lines => Sys2Proof.Machine.execPowerOnReset lines s
  | .pinReset lowMicros lines => Sys2Proof.Machine.execPinReset lowMicros lines s
  | .frameDiscard p line => Sys2Proof.Machine.execFrameDiscard p line s
  | .unknownKind p kind => Sys2Proof.Machine.execUnknownKind p kind s
  | .responseSent p => Sys2Proof.Machine.execResponseSent p s
  | .status p => Sys2Proof.Machine.execStatus p s
  | .causes p => Sys2Proof.Machine.execCauses p s
  | .enables p mask => Sys2Proof.Machine.execEnables p mask s
  | .clearLink p => Sys2Proof.Machine.execClearLink p s
  | .meter report => Sys2Proof.Machine.execMeter report s
  | .anchor pressure heat => Sys2Proof.Machine.execAnchor pressure heat s
  | .declareAvailable train declaration starts => Sys2Proof.Machine.execDeclareAvailable train declaration starts s
  | .declareOffline train => Sys2Proof.Machine.execDeclareOffline train s
  | .release train => Sys2Proof.Machine.execRelease train s
  | .trainRead train => Sys2Proof.Machine.execTrainRead train s
  | .profileRead field image => Sys2Proof.Machine.execProfileRead field image s
  | .profileWrite field value => Sys2Proof.Machine.execProfileWrite field value s
  | .profileStore => Sys2Proof.Machine.execProfileStore s
  | .profileStoreCompletion => Sys2Proof.Machine.execProfileStoreCompletion s
  | .profileLoad => Sys2Proof.Machine.execProfileLoad s
  | .profileCheck => Sys2Proof.Machine.execProfileCheck s
  | .profileCheckCompletion => Sys2Proof.Machine.execProfileCheckCompletion s
  | .profileMemoryFault field value => Sys2Proof.Machine.execProfileMemoryFault field value s
  | .enterService => Sys2Proof.Machine.execEnterService s
  | .enterMaintenance => Sys2Proof.Machine.execEnterMaintenance s
  | .clockSet interval millis => Sys2Proof.Machine.execClockSet interval millis s
  | .clockTrim correction => Sys2Proof.Machine.execClockTrim correction s
  | .submit b => Sys2Proof.Machine.execSubmit b s
  | .withdraw reference => Sys2Proof.Machine.execWithdraw reference s
  | .abandon => Sys2Proof.Machine.execAbandon s
  | .checkMode code => Sys2Proof.Machine.execCheckMode code s
  | .bookRead ordinal => Sys2Proof.Machine.execBookRead ordinal s
  | .position => Sys2Proof.Machine.execPosition s
  | .recordRead interval => Sys2Proof.Machine.execRecordRead interval s
  | .activate requested => Sys2Proof.Machine.execActivate requested s
  | .poll => Sys2Proof.Machine.execPoll s
  | .dispatchTick => Sys2Proof.Machine.execDispatchTick s
  | .lossTick => Sys2Proof.Machine.execLossTick s
  | .staleOnset => Sys2Proof.Machine.execStaleOnset s
  | .intervalBoundary => Sys2Proof.Machine.execIntervalBoundary s
  | .minDownExpiry t => Sys2Proof.Machine.execMinDownExpiry t s
  | .minRunExpiry t => Sys2Proof.Machine.execMinRunExpiry t s
  | .startTimerExpiry t => Sys2Proof.Machine.execStartTimerExpiry t s
  | .stopTimerExpiry t => Sys2Proof.Machine.execStopTimerExpiry t s
  | .cooldownExpiry t => Sys2Proof.Machine.execCooldownExpiry t s
  | .startHistoryPrune t => Sys2Proof.Machine.execStartHistoryPrune t s
  | .permitHoldExpiry => Sys2Proof.Machine.execPermitHoldExpiry s
  | .dwellExpiry => Sys2Proof.Machine.execDwellExpiry s
  | .gridLinkLoss => Sys2Proof.Machine.execGridLinkLoss s
  | .activationHoldExpiry => Sys2Proof.Machine.execActivationHoldExpiry s
  | .backgroundCheck => Sys2Proof.Machine.execBackgroundCheck s
  | .tripFallingEdge t => Sys2Proof.Machine.execTripFallingEdge t s
  | .tripRisingEdge t => Sys2Proof.Machine.execTripRisingEdge t s
  | .checkCompletion => Sys2Proof.Machine.execCheckCompletion s
  | .reviewCompletion => Sys2Proof.Machine.execReviewCompletion s
  | .badLength p kind length => Sys2Proof.Machine.execBadLength p kind length s

end Sys2Proof.Machine
end

