-- ==== Sys2Proof/Machine/Step.lean ====
section
/-! DEFINITION. One step of the coordinator: the command at the front of the queue, or a millisecond of device time where no command
waits (log entry 2). -/

namespace Sys2Proof.Machine

/-- The command at the front of the queue is taken off it and acts; with no command waiting, a millisecond passes. -/
def step (s : State) : Host.Outcome State Fault Refusal :=
  match s.pending with
  | [] => .next s.passMillisecond
  | c :: rest => exec c (s.withPending rest)

/-- The command that a word spells is put at the front of the queue. No row of spec/opcode_table.json has bits, so no word spells a
command and the state is unchanged (log entry 1). -/
def State.withFetchWord (s : State) (nbits w : Nat) : State :=
  match decodeTableWord nbits w with
  | some c => s.withPending (c :: s.pending)
  | none => s

end Sys2Proof.Machine
end

