-- ==== Sys2Proof/Safety.lean ====
section
/-! DEFINITION. The terms in which claims are stated: which parts of the state an event may change, what a response looks like, what
a review request does, the values after a reset, and the invariants that the manual's own words promise. -/

namespace Sys2Proof.Machine

/-! ### What an event may change -/

/-- The parts of the state that a frame names: the blocks, each port by itself, the values in force, the model's own fields. -/
inductive Part where
  | inv | tb | book | prj | trc | du | rsv | slog | prof | pp | tp | gp | settings | resetHeld | draws | pending
deriving DecidableEq, Repr

/-- Two states agree in one part. -/
def State.same (s t : State) : Part → Prop
  | .inv => t.inv = s.inv
  | .tb => t.tb = s.tb
  | .book => t.book = s.book
  | .prj => t.prj = s.prj
  | .trc => t.trc = s.trc
  | .du => t.du = s.du
  | .rsv => t.rsv = s.rsv
  | .slog => t.slog = s.slog
  | .prof => t.prof = s.prof
  | .pp => t.ports.pp = s.ports.pp
  | .tp => t.ports.tp = s.ports.tp
  | .gp => t.ports.gp = s.ports.gp
  | .settings => t.settings = s.settings
  | .resetHeld => t.resetHeld = s.resetHeld
  | .draws => t.draws = s.draws
  | .pending => t.pending = s.pending

/-- From `s` to `t`, every part but those listed is unchanged. -/
def State.onlyChanges (s t : State) (parts : List Part) : Prop := ∀ x, x ∉ parts → s.same t x

/-- The part that a port is. -/
def portPart : Port → Part
  | .pp => .pp
  | .tp => .tp
  | .gp => .gp

/-- What any frame taken on a port may change besides the request's own effect: the port, and on the grid port the grid link (R141). -/
def frameParts : Port → List Part
  | .pp => [.pp]
  | .tp => [.tp]
  | .gp => [.gp, .rsv]

/-- No frame is in progress on the port and no response is owed: the next good frame is taken, and its break discards nothing (R175,
R177). A frame that comes in over a frame in progress acts as in `State.cutOff`. -/
def State.free (s : State) (p : Port) : Prop := (s.port p).assembler = .waiting ∧ (s.port p).owed = false

/-- The Reserve Unit after a frame the grid port takes (R141, R144): the link is LINKED, a hold that was running stops at a
restoration, and the link timer is loaded where the settings are loaded. -/
def State.linkAfterFrame (s : State) : Reserve :=
  { s.rsv with
    link := .linked
    holdTimer := if s.rsv.link = .lost then none else s.rsv.holdTimer
    linkTimer := match s.settings with
      | none => s.rsv.linkTimer
      | some c => some (s.now + c.linkTimeout) }

/-! ### Responses -/

/-- The status byte of the response that took the machine from `s` to `t`: RESET_SEEN as `s` had it, everything else as `t` has it
(R181). -/
def State.shownStatus (s t : State) (p : Port) : Byte :=
  (t.setPort p { t.port p with resetSeen := (s.port p).resetSeen }).statusByte p

/-- From `s` to `t`, a frame was taken on a free port and its response was built and queued; beside its cause flags the port is
otherwise as it was (R174, R177, R179 to R181). -/
def State.replied (s t : State) (p : Port) (requestKind : Byte) (result : Result) (fields : List Byte) : Prop :=
  t.port p =
    { assembler := .waiting
      errors := (s.port p).errors
      causes := (t.port p).causes
      enables := (s.port p).enables
      resetSeen := false
      owed := true
      output := (s.port p).output ++
        [Frame.make (requestKind + 0x80#8) (s.shownStatus t p :: result.code :: fields)] }

/-- The response above, with no cause raised or cleared on the port. -/
def State.repliedPlain (s t : State) (p : Port) (requestKind : Byte) (result : Result) (fields : List Byte) : Prop :=
  s.replied t p requestKind result fields ∧ (t.port p).causes = (s.port p).causes

/-- The request is taken on a free port and answered, and nothing else changes: only the port that answers, and on the grid port the grid
link as any frame there acts on it (R141, R177). Every refusal is of this form. -/
def State.onlyAnswers (s : State) (c : Instr) (p : Port) (requestKind : Byte) (result : Result) (fields : List Byte) : Prop :=
  ∃ t, exec c s = .next t ∧ s.onlyChanges t (frameParts p) ∧
    (t.rsv = if p = .gp then s.linkAfterFrame else s.rsv) ∧ s.repliedPlain t p requestKind result fields

/-- A port between `s` and `t`: nothing but a cause was raised on it (R184). -/
def State.raisedOnly (s t : State) (p : Port) (c : Cause) : Prop :=
  t.port p = { s.port p with causes := (s.port p).causes ||| c.mask p }

/-- The port `x` once one more error has been counted on port `p` (R182, R172). The comparison with the limit is made at every counted error,
also at one counted at 255 (log entry 34, DEDUCED). -/
def State.afterError (s : State) (p : Port) (x : PortState) : PortState :=
  { x with
    errors := min 255 ((s.port p).errors + 1)
    causes :=
      if (if s.prof.bad then 16 else (s.settings.map Settings.portErrorLimit).getD 16) ≤ min 255 ((s.port p).errors + 1) then
        (s.port p).causes ||| Cause.mask p .linkFault
      else (s.port p).causes }

/-- The state once the frame in progress on a port has been discarded and counted (R175, R182). -/
def State.cutOff (s : State) (p : Port) : State := s.setPort p (s.afterError p { s.port p with assembler := .waiting })

/-! ### Reviews -/

/-- Between `s` and `t` one review was requested and nothing else reached the engine: it starts from the state as it now stands
where no job runs, the inventory is anchored and the clock is SET, and otherwise the pending-review flag is set (R70). -/
def State.reviewRequested (s t : State) : Prop :=
  t.prj =
    match s.prj.running, t.inv.status.anchored, t.tb.clock with
    | none, true, some c => { s.prj with running := some (.review (t.snapshot c)), pendingReview := false }
    | _, _, _ => { s.prj with pendingReview := true }

/-- The engine `base` after `n` review requests between whose first and `t` neither the inventory's status nor the clock changed (R70): the
first starts a review where no job runs, the inventory is anchored and the clock is SET, and each later one sets the flag; elsewhere
each sets the flag. -/
def State.afterRequests (t : State) (base : Engine) (n : Nat) : Prop :=
  (n = 0 → t.prj = base) ∧
  (0 < n → base.running = none → t.inv.status ≠ .unanchored → ∀ c, t.tb.clock = some c →
    ∃ snap : Snapshot, snap.clock = c ∧ t.prj = { base with running := some (.review snap), pendingReview := decide (1 < n) }) ∧
  (0 < n → (base.running ≠ none ∨ t.inv.status = .unanchored ∨ t.tb.clock = none) → t.prj = { base with pendingReview := true })

/-- A cause's flag on a port between `s` and `t`: set where `raised` holds, and otherwise as it was (R184). -/
def State.flagged (s t : State) (p : Port) (c : Cause) (raised : Prop) : Prop :=
  (raised → (t.port p).causes &&& c.mask p = c.mask p) ∧
  (¬ raised → (t.port p).causes &&& c.mask p = (s.port p).causes &&& c.mask p)

/-! ### Events at a dispatch tick -/

/-- The command that stands for an event. -/
def Event.row : Event → Instr
  | .loss => .lossTick
  | .stale => .staleOnset
  | .minDown x => .minDownExpiry x
  | .minRun x => .minRunExpiry x
  | .start x => .startTimerExpiry x
  | .stop x => .stopTimerExpiry x
  | .cooldown x => .cooldownExpiry x
  | .prune x => .startHistoryPrune x
  | .permitHold => .permitHoldExpiry
  | .dwell => .dwellExpiry
  | .linkLoss => .gridLinkLoss
  | .activationHold => .activationHoldExpiry
  | .background => .backgroundCheck

/-- The device second of the count is complete: no tick is open and no event is due. -/
def State.settled (s : State) : Prop := s.tb.tickOpen = false ∧ ∀ e, s.isDue e = false

/-- The state `u` in which an event is taken from `s`: `s` itself where it is due; otherwise the opening of the next tick, where it falls due
there and no tick is open yet (R38; log entry 2). -/
def State.takenAt (s : State) (e : Event) (u : State) : Prop :=
  (s.isDue e = true ∧ u = s) ∨
  (s.isDue e = false ∧ s.tb.tickOpen = false ∧ u = s.nextTick true ∧ u.isDue e = true)

/-- No boundary falls in the next `n` milliseconds (R39). -/
def State.noBoundary (s : State) (n : Nat) : Prop :=
  ∀ c, s.tb.clock = some c → c.millis + n < s.cfg.intervalLength * 60000

/-- Everything that a boundary ending the interval of clock `c` does between `s` and `t`, with `millis` milliseconds counted in the new
interval (R39, R45, R60, R139, R149, R151). The order of the blocks is the model's (log entry 19); so is the cut of a ring of more than 96
records, which no run reaches (log entry 23). -/
structure State.TakesBoundary (s t : State) (c : Clock) (millis : Nat) : Prop where
  clock : t.tb.clock = if c.interval < 4000000000 then some { interval := c.interval + 1, millis := millis } else none
  book : t.book =
    { blocks := s.book.blocks.filter fun b => decide (b.terms.last ≠ c.interval)
      revision :=
        if (s.book.blocks.filter fun b => decide (b.terms.last ≠ c.interval)).length < s.book.blocks.length then
          s.book.revision + 1
        else s.book.revision }
  grant : t.rsv = { s.rsv with granted := max (-(t.band.down : Int)) (min (t.band.up : Int) s.rsv.granted) }
  band : t.port .gp =
    { s.port .gp with
      causes := if t.band = s.band then (s.port .gp).causes else (s.port .gp).causes ||| Cause.mask .gp .band }
  ring : t.slog.ring =
    match s.slog.current with
    | none => s.slog.ring
    | some r =>
      (if 96 ≤ s.slog.ring.length then s.slog.ring.drop (s.slog.ring.length - 95) else s.slog.ring) ++
        [{ opened := r, endMass := if s.inv.status = .unanchored then none else some s.inv.mass, endEpoch := s.inv.epoch
           scheduledKwh := r.scheduled.tdiv 3600, deliveredKwh := r.delivered.tdiv 3600
           reserveUpKwh := r.reserveUp.tdiv 3600, reserveDownKwh := r.reserveDown.tdiv 3600 }]
  opened : t.slog.current =
    if c.interval < 4000000000 then
      some
        { interval := c.interval + 1, reference := t.currentBlock.map fun b => b.terms.reference
          startMass := if s.inv.status = .unanchored then none else some s.inv.mass, startEpoch := s.inv.epoch
          scheduled := 0, delivered := 0, reserveUp := 0, reserveDown := 0, ticks := 0
          flags :=
            { atRisk := (t.currentBlock.map Block.atRisk).getD false
              derated := false, minLoad := false, stale := decide (s.inv.metering = .stale)
              gridLost := s.rsv.holdTimer.isSome, clamped := false, discontinuity := false, isPartial := false } }
    else none
  record : (t.port .tp).causes =
    if s.slog.current = none then (s.port .tp).causes else (s.port .tp).causes ||| Cause.mask .tp .record
  review : s.reviewRequested t
  frame : s.onlyChanges t [.tb, .book, .prj, .rsv, .slog, .tp, .gp]

/-- From the state `n` that the parts of a dispatch tick leave to the state `t` that its command leaves: a boundary that falls at the very
instant of the tick is taken after them, and otherwise nothing more happens. Either order is allowed (R39, R152): INTERVAL_BOUNDARY ahead
of DISPATCH_TICK takes the boundary first (log entry 2). -/
structure State.ClosesTick (n t : State) : Prop where
  reached : ∀ c, n.tb.clock = some c → c.millis = n.cfg.intervalLength * 60000 → n.TakesBoundary t c 0
  short : (∀ c, n.tb.clock = some c → c.millis ≠ n.cfg.intervalLength * 60000) → t = n

/-- The Dispatch Unit once a dwell that has run out by now has ended: its expiry comes before the computation of its tick (R116, R122). -/
def State.rested (s : State) : DispatchUnit :=
  match s.du.dwell with
  | some due => if due ≤ s.now then { s.du with dwell := none, dwellKind := none } else s.du
  | none => s.du

/-! ### Trips -/

/-- Between `s` and `t` the last active train of a kind has left the active states. -/
def State.emptied (s t : State) (k : Kind) : Prop :=
  (∃ x : Train, x.kind = k ∧ (s.train x).state.active = true) ∧ ∀ x : Train, x.kind = k → (t.train x).state.active = false

/-- The dwell after the trains have left the active states one after another, in the order C1 to E3, and none has entered them (R122). -/
structure State.DwellFollows (s t : State) : Prop where
  turbines : 0 < s.cfg.dwell → s.emptied t .turbine →
    t.du.dwell = some (s.now + s.cfg.dwell) ∧ t.du.dwellKind = some .turbine
  compressors : 0 < s.cfg.dwell → s.emptied t .compressor → ¬ s.emptied t .turbine →
    t.du.dwell = some (s.now + s.cfg.dwell) ∧ t.du.dwellKind = some .compressor
  kept : s.cfg.dwell = 0 ∨ (¬ s.emptied t .compressor ∧ ¬ s.emptied t .turbine) →
    t.du.dwell = s.du.dwell ∧ t.du.dwellKind = s.du.dwellKind

/-- Everything that tripping every active train at one event does between `s` and `t`, in the order C1 to E3 (R104, R109 to R111, R122,
R128), beside what the event itself does. -/
structure State.TripsActive (s t : State) (reason : TripReason) : Prop where
  tripped : ∀ x : Train, (s.train x).state.active = true →
    t.train x =
      { s.train x with
        state := .tripped, reason := some reason, minDown := .stopped, minRun := .stopped, start := .stopped,
        stop := .stopped, cooldown := .stopped } ∧
    t.permit x = false ∧ t.du.setpoint.get x = 0
  others : ∀ x : Train, (s.train x).state.active = false → t.train x = s.train x
  generation : t.trc.generation = s.trc.generation +
    BitVec.ofNat 32 (Train.all.filter fun x => (s.train x).state.active).length
  dwell : s.DwellFollows t
  trip : s.flagged t .pp .trip (∃ x : Train, (s.train x).state.active = true)
  capacity : s.flagged t .tp .capacity (∃ x : Train, (s.train x).state.active = true)
  reviews : t.afterRequests s.prj (Train.all.filter fun x => (s.train x).state.active).length

/-- No train of a kind but `x` is active. -/
def State.lastActive (s : State) (x : Train) : Prop :=
  ∀ y : Train, y.kind = x.kind → y ≠ x → (s.train y).state.active = false

/-- Everything that an entry of train `x` to TRIPPED does between `s` and `t` (R104, R111, R122, R128), and nothing else. -/
structure State.Trips (s t : State) (x : Train) (reason : TripReason) : Prop where
  record : t.train x =
    { s.train x with
      state := .tripped, reason := some reason, minDown := .stopped, minRun := .stopped, start := .stopped,
      stop := .stopped, cooldown := .stopped }
  others : ∀ y, y ≠ x → t.train y = s.train y
  permit : t.permit x = false
  generation : t.trc.generation = s.trc.generation + 1
  permitHold : t.trc.permitHold = s.trc.permitHold
  loadsDwell : (s.train x).state.active = true → s.lastActive x → 0 < s.cfg.dwell →
    t.du = { s.du with
      setpoint := s.du.setpoint.set x 0, dwell := some (s.now + s.cfg.dwell), dwellKind := some x.kind }
  keepsDwell : ((s.train x).state.active = false ∨ ¬ s.lastActive x ∨ s.cfg.dwell = 0) →
    t.du = { s.du with setpoint := s.du.setpoint.set x 0 }
  plant : s.raisedOnly t .pp .trip
  trade : s.raisedOnly t .tp .capacity
  review : s.reviewRequested t
  frame : s.onlyChanges t [.prj, .trc, .du, .pp, .tp]

/-! ### Metering -/

/-- The state a train's reported status leaves it in, and the reason if it trips it (R98, R99). -/
def reportOutcome : TrainState → Reported → TrainState × Option TripReason
  | .stopped, .stopped => (.stopped, none)
  | .stopped, .tripped => (.tripped, some .plant)
  | .stopped, _ => (.tripped, some .uncommanded)
  | .starting, .running => (.running, none)
  | .starting, .stopping => (.tripped, some .uncommanded)
  | .starting, .tripped => (.tripped, some .plant)
  | .starting, _ => (.starting, none)
  | .running, .running => (.running, none)
  | .running, .tripped => (.tripped, some .plant)
  | .running, _ => (.tripped, some .unexpectedStop)
  | .stopping, .stopped => (.stopped, none)
  | .stopping, .starting => (.tripped, some .uncommanded)
  | .stopping, .tripped => (.tripped, some .plant)
  | .stopping, _ => (.stopping, none)
  | .tripped, .stopped => (.locked, none)
  | .tripped, _ => (.tripped, none)
  | x, _ => (x, none)

/-- The forward count of a totaliser from its baseline, across at most one wrap (R5). -/
def forwardCount (base value : Nat) : Nat := if value < base then value + 4294967296 - base else value - base

/-- A value of the account while a METER's totalisers are worked, with whether an application has saturated (R8) and a delta has been discarded
(R6). -/
structure Account where
  value : Nat
  saturated : Bool
  discarded : Bool
deriving DecidableEq, Repr

/-- The account after one more totaliser (R5 to R8): `rate` is its plausibility, `top` the bound of an increase. -/
def Account.after (anchored increase : Bool) (rate elapsed top : Nat) (base : Option Word) (value : Word) (a : Account) : Account :=
  match base with
  | none => a
  | some b =>
    let d := forwardCount b.toNat value.toNat
    if rate * (elapsed + 2) < d then { a with discarded := true }
    else if !anchored then a
    else if increase then { a with value := min top (a.value + d), saturated := a.saturated || decide (top < a.value + d) }
    else { a with value := a.value - d, saturated := a.saturated || decide (a.value < d) }

/-- M and its marks after the seven mass totalisers of a METER, in the order of R4 step 2. -/
def State.massAccount (s : State) (c : Settings) (report : MeterReport) : Account :=
  Train.all.foldl
    (fun a x =>
      if (c.trains.get x).installed then
        a.after (decide (s.inv.status ≠ .unanchored)) (decide (x.kind = .compressor)) (c.trains.get x).massRate
          (s.now - s.inv.lastMeter) c.lastMass (s.inv.massBase.get x) (report.trains.get x).mass
      else a)
    { value := s.inv.mass, saturated := false, discarded := false }

/-- H_k and its marks after the two heat totalisers of a tier, heat-in first (R4 step 2). -/
def State.heatAccount (s : State) (c : Settings) (report : MeterReport) (k : Tier) : Account :=
  let anchored := decide (s.inv.status ≠ .unanchored)
  (({ value := s.inv.heat.get k, saturated := false, discarded := false : Account }).after anchored true (c.tiers.get k).heatRate
      (s.now - s.inv.lastMeter) (c.tiers.get k).capacity (s.inv.heatInBase.get k) (report.tiers.get k).heatIn).after anchored false
    (c.tiers.get k).heatRate (s.now - s.inv.lastMeter) (c.tiers.get k).capacity (s.inv.heatOutBase.get k)
    (report.tiers.get k).heatOut

/-! ### Values after a reset -/

/-- Every value that the manual gives a reset of either kind, apart from the images (R3, R41, R63, R65, R87, R115, R134, R148, R167,
R173). -/
structure State.HoldsResetValues (t : State) (lines : PerTrain Bool) : Prop where
  inventory : t.inv =
    { mass := 0, heat := ⟨0, 0, 0⟩, status := .unanchored, metering := .fresh, drift := 0, epoch := 0#32,
      massBase := ⟨none, none, none, none, none, none, none⟩, heatInBase := ⟨none, none, none⟩,
      heatOutBase := ⟨none, none, none⟩, lastMeter := 0 }
  settings : t.settings = none
  time : t.tb = { count := 0#48, phase := 0, tickOpen := false, nextLoss := 60, clock := none }
  book : t.book = { blocks := [], revision := 0#16 }
  engine : t.prj = { running := none, waiting := none, pendingReview := false, checkMode := .hold, defaultApplied := false }
  trains : ∀ x, t.train x =
    { state := .absent, reason := none, minDown := .stopped, minRun := .stopped, start := .stopped, stop := .stopped,
      cooldown := .stopped, releaseTaken := false, history := [], reported := none, output := 0, lineHigh := lines.get x,
      sensitivity := .edge }
  generation : t.trc.generation = 0#32
  permitHold : t.trc.permitHold = none
  permits : ∀ x, t.permit x = false
  dispatch : t.du =
    { target := 0, previous := 0, working := 0, clamped := 0, headroomUp := 0, headroomDown := 0, derateReported := false,
      dwell := none, dwellKind := none, setpoint := ⟨0, 0, 0, 0, 0, 0, 0⟩, metered := 0 }
  reserve : t.rsv = { granted := 0, link := .lost, linkTimer := none, holdTimer := none, lossCount := 0#16 }
  settlement : t.slog = { current := none, ring := [] }
  bad : t.prof.bad = true
  lastCheck : t.prof.lastCheck = .none
  failingField : t.prof.failingField = 0
  activity : t.prof.activity = .verifying .powerUp t.prof.working
  mode : t.prof.mode = .checking
  background : t.prof.background = none
  siteCode : t.prof.siteCode = 0
  ports : ∀ p, t.port p =
    { assembler := .waiting, errors := 0, causes := 0#8, enables := 0#8, resetSeen := true, owed := false, output := [] }
  errorLimit : t.errorLimit = 16
  held : t.resetHeld = false
  fault : t.faultLine = true

/-! ### Invariants -/

/-- The values in force always come from an image that a check passed (R25, R160). -/
def State.SettingsSafe (s : State) : Prop :=
  ∀ c, s.settings = some c → ∃ image, failingField image = none ∧ c = Settings.ofImage image

/-- M and the heats lie within their bounds (R1), and the inventory is never anchored while no settings are loaded (R3). -/
structure State.InventorySafe (s : State) : Prop where
  settings : s.SettingsSafe
  unloaded : s.settings = none → s.inv.status = .unanchored ∧ s.inv.mass = 0 ∧ ∀ k, s.inv.heat.get k = 0
  mass : ∀ c, s.settings = some c → s.inv.mass ≤ c.lastMass
  heat : ∀ c k, s.settings = some c → s.inv.heat.get k ≤ (c.tiers.get k).capacity

/-- No compressor and turbine active together, at most one train of a kind STARTING (R94), and no active train outside SERVICE
(R108). -/
structure State.TrainsSafe (s : State) : Prop where
  exclusive : ∀ a b : Train, a.kind ≠ b.kind → (s.train a).state.active = true → (s.train b).state.active = false
  oneStarting : ∀ a b : Train, a.kind = b.kind → (s.train a).state = .starting → (s.train b).state = .starting → a = b
  service : ∀ a : Train, (s.train a).state.active = true → s.prof.mode = .service

/-- Two blocks in the book's order: the earlier ends before the later begins, and their references differ (R48). -/
def Block.before (a b : Block) : Prop := a.terms.last < b.terms.first ∧ a.terms.reference ≠ b.terms.reference

/-- The book is in order, without overlap or repeated reference, and holds at most 64 blocks (R48); a check waits only behind a review
(R69); the candidate in flight still fits (R51). -/
structure State.BookSafe (s : State) : Prop where
  ordered : s.book.blocks.Pairwise Block.before
  lengths : ∀ b ∈ s.book.blocks, 1 ≤ b.terms.length
  size : s.book.blocks.length ≤ 64
  oneCheck : s.prj.waiting.isSome = true → ∃ snap, s.prj.running = some (.review snap)
  candidate : ∀ c, s.inFlight = some c →
    1 ≤ c.length ∧ s.book.blocks.length < 64 ∧
    ∀ b ∈ s.book.blocks, b.terms.overlaps c = false ∧ b.terms.reference ≠ c.reference

/-- The ring holds at most 96 records of strictly increasing intervals (R147); a record is open exactly while the clock is SET, for the
current interval, and every closed record is of an earlier one (R149, R151, R156). -/
structure State.RingSafe (s : State) : Prop where
  size : s.slog.ring.length ≤ 96
  increasing : s.slog.ring.Pairwise fun a b => a.opened.interval < b.opened.interval
  openInterval : s.slog.current.map OpenRecord.interval = s.tb.clock.map Clock.interval
  earlier : ∀ c, s.tb.clock = some c → ∀ r ∈ s.slog.ring, r.opened.interval < c.interval

/-- The granted activation lies within the band of the current block, and is 0 outside SERVICE and while the clock is UNSET (R133). -/
structure State.GrantSafe (s : State) : Prop where
  settings : s.SettingsSafe
  loaded : s.tb.clock.isSome = true → s.settings.isSome = true
  low : -(s.band.down : Int) ≤ s.rsv.granted
  high : s.rsv.granted ≤ s.band.up
  outside : s.prof.mode ≠ .service → s.rsv.granted = 0

/-- Device time as R38 and R39 promise it: no timer, stale test or loss tick is passed by the count, and none is still due once the
milliseconds of the second run; the next loss tick is a multiple of 60 (R16); the interval clock stays within its ranges (R39); start
stamps rise and lie in the past (R91). While no settings are loaded every train is ABSENT (R86). -/
structure State.TimeSafe (s : State) : Prop where
  settings : s.SettingsSafe
  absent : s.settings = none → ∀ x : Train, (s.train x).state = .absent
  phase : s.tb.phase ≤ 1000
  opened : s.tb.tickOpen = true → s.tb.phase = 0
  onTime : ∀ e due, s.dueAt e = some due → s.now ≤ due
  taken : 0 < s.tb.phase → ∀ e, s.isDue e = false
  loss : 60 ∣ s.tb.nextLoss ∧ s.tb.nextLoss ≤ s.now + 60
  loaded : s.tb.clock.isSome = true → s.settings.isSome = true
  clock : ∀ c, s.tb.clock = some c →
    1 ≤ c.interval ∧ c.interval ≤ 4000000000 ∧ c.millis < s.cfg.intervalLength * 60000
  history : ∀ x : Train, (s.train x).history.Pairwise (· ≤ ·) ∧ ∀ stamp ∈ (s.train x).history, stamp ≤ s.now
  lastMeter : s.inv.lastMeter ≤ s.now

/-- The book, the settlement ring and the granted activation together: what the interval clock governs. -/
structure State.ScheduleSafe (s : State) : Prop where
  book : s.BookSafe
  ring : s.RingSafe
  grant : s.GrantSafe

/-- The target has the sign of the trains that may be active (R126); outside SERVICE it is 0 (R132); a RUNNING train's setpoint lies within
its bounds and every other train's is 0 (R127, R128). -/
structure State.DispatchSafe (s : State) : Prop where
  settings : s.SettingsSafe
  trains : s.TrainsSafe
  discharge : 0 < s.du.target → ∀ x : Train, x.kind = .compressor → (s.train x).state.active = false
  charge : s.du.target < 0 → ∀ x : Train, x.kind = .turbine → (s.train x).state.active = false
  outside : s.prof.mode ≠ .service → s.du.target = 0
  running : ∀ x : Train, (s.train x).state = .running →
    (s.trainCfg x).minStable ≤ s.du.setpoint.get x ∧ s.du.setpoint.get x ≤ (s.trainCfg x).maxKw
  rest : ∀ x : Train, (s.train x).state ≠ .running → s.du.setpoint.get x = 0

/-- The responses in a port's output queue. -/
def PortState.responses (x : PortState) : Nat := (x.output.filter fun f => decide (f.kind ≠ noticeKind)).length

/-- A frame has the form of R174 and the CRC-8 of R176. -/
def wellFramed (f : Frame) : Prop :=
  f.payload.length ≤ 120 ∧ f.length.toNat = f.payload.length ∧ f.crc = crc8 (f.kind :: f.length :: f.payload)

/-- One response for each frame taken: a queue holds a response only while one is owed, and never two (R177, R179); a check in flight in
HOLD mode is owed its response, which is not queued yet (R80); the mode cannot be changed under it by a first passing check (R65). No
command ends with a reset still held (R187; log entry 35). -/
structure State.PortsSafe (s : State) : Prop where
  framed : ∀ p, ∀ f ∈ (s.port p).output, wellFramed f
  none : ∀ p, (s.port p).owed = false → (s.port p).responses = 0
  one : ∀ p, (s.port p).responses ≤ 1
  held : s.inFlight.isSome = true → s.prj.checkMode = .hold →
    (s.port .tp).owed = true ∧ (s.port .tp).responses = 0
  applied : s.inFlight.isSome = true → s.prj.defaultApplied = true
  loaded : s.settings.isSome = true → s.prj.defaultApplied = true
  service : s.prof.mode = .service → s.settings.isSome = true
  oneCheck : s.prj.waiting.isSome = true → ∃ snap, s.prj.running = some (.review snap)
  released : s.resetHeld = false

end Sys2Proof.Machine
end

