-- ==== Sys2Proof/Certificates/Slice0/Obligations.lean ====
section
/-! DEFINITION. The statements for the provers. -/

open Sys2Proof Sys2Proof.Machine

/-! ### The step, device time and the resets -/

/-- A step with a command at the front of the queue is that command's effect with the queue's rest. -/
def Obligations.StepRunsTheFrontCommand : Prop :=
  ∀ (s : State) (c : Instr) (rest : List Instr), s.pending = c :: rest → step s = exec c (s.withPending rest)

/-- The model's choice (log entry 2): with no command waiting, a millisecond passes, and a notice at the front of the trade port's queue is
sent. Where the millisecond ends the device second, the step is the dispatch tick's own. Otherwise, in a state whose second is settled,
the milliseconds of the second and of the interval clock move on by 1, and the boundary they reach is taken (R39); short of a boundary
nothing else changes. -/
def Obligations.IdleStepPassesAMillisecond : Prop :=
  ∀ s : State, s.pending = [] →
    (1000 ≤ s.tb.phase + 1 → step s = exec .dispatchTick s.sendNotice) ∧
    (s.settled → s.tb.phase + 1 < 1000 →
      ∃ t, step s = .next t ∧ t.pending = [] ∧
        t.tb = { s.tb with phase := s.tb.phase + 1, clock := t.tb.clock } ∧
        (s.noBoundary 1 →
          s.onlyChanges t [.tb, .tp] ∧
          t.tb.clock = (s.tb.clock.map fun c => { interval := c.interval, millis := c.millis + 1 }) ∧
          t.port .tp = { s.port .tp with output := dropSentNotice (s.port .tp).output }) ∧
        (∀ c, s.tb.clock = some c → s.cfg.intervalLength * 60000 ≤ c.millis + 1 →
          s.sendNotice.TakesBoundary t c (c.millis + 1 - s.cfg.intervalLength * 60000)))

/-- How device time passes (R38, R39, R89), at the instants that the model gives it (log entry 2, DESIGN CHOICE). The end of a device second
increases the count by 1 and leaves 0 milliseconds of the next. From a settled state, in which no event is still due, nothing else
happens but on the interval clock: the rest of the second is added to its milliseconds, and a boundary that they pass is taken. A boundary
at the very end of the second may come before the tick or after it (R39, R152): `nextTick` has taken it, `endSecond` has not. An event
is due from the tick at which the count reaches its due time; the stale test is made only at a tick, while metering is FRESH. An event
that can be taken neither now nor at the opening of the next tick changes nothing (log entry 3, DEDUCED). -/
def Obligations.TicksEndTheSecond : Prop :=
  (∀ (s : State) (o : Bool),
    let rest := 1000 - s.tb.phase
    let moved := fun u : State =>
      s.onlyChanges u [.tb] ∧
      u.tb =
        { count := s.tb.count + 1, phase := 0, tickOpen := u.tb.tickOpen, nextLoss := s.tb.nextLoss
          clock := s.tb.clock.map fun c => { interval := c.interval, millis := c.millis + rest } }
    ((s.nextTick o).tb.count = s.tb.count + 1 ∧ (s.nextTick o).tb.phase = 0 ∧ (s.nextTick o).tb.tickOpen = o) ∧
    (s.endSecond.tb.count = s.tb.count + 1 ∧ s.endSecond.tb.phase = 0 ∧ s.endSecond.tb.tickOpen = false) ∧
    (s.settled → s.noBoundary rest → moved (s.nextTick o) ∧ moved s.endSecond) ∧
    (∀ c, s.settled → s.tb.clock = some c →
      (s.cfg.intervalLength * 60000 ≤ c.millis + rest →
        s.TakesBoundary (s.nextTick o) c (c.millis + rest - s.cfg.intervalLength * 60000)) ∧
      (c.millis + rest = s.cfg.intervalLength * 60000 → moved s.endSecond) ∧
      (s.cfg.intervalLength * 60000 < c.millis + rest →
        s.TakesBoundary s.endSecond c (c.millis + rest - s.cfg.intervalLength * 60000)))) ∧
  (∀ (s : State) (e : Event), s.isDue e = true ↔
    match e with
    | .loss => s.tb.nextLoss ≤ s.now
    | .stale => s.tb.phase = 0 ∧ s.inv.metering = .fresh ∧
        ∃ c, s.settings = some c ∧ s.inv.lastMeter + c.staleLimit ≤ s.now
    | .minDown x => ∃ due, (s.train x).minDown.expiry = some due ∧ due ≤ s.now
    | .minRun x => ∃ due, (s.train x).minRun.expiry = some due ∧ due ≤ s.now
    | .start x => ∃ due, (s.train x).start.expiry = some due ∧ due ≤ s.now
    | .stop x => ∃ due, (s.train x).stop.expiry = some due ∧ due ≤ s.now
    | .cooldown x => ∃ due, (s.train x).cooldown.expiry = some due ∧ due ≤ s.now
    | .prune x => ∃ oldest rest, (s.train x).history = oldest :: rest ∧ oldest + 86400 ≤ s.now
    | .permitHold => ∃ due, s.trc.permitHold = some due ∧ due ≤ s.now
    | .dwell => ∃ due, s.du.dwell = some due ∧ due ≤ s.now
    | .linkLoss => ∃ due, s.rsv.linkTimer = some due ∧ due ≤ s.now
    | .activationHold => ∃ due, s.rsv.holdTimer = some due ∧ due ≤ s.now
    | .background => ∃ due, s.prof.background = some due ∧ due ≤ s.now) ∧
  (∀ (s : State) (e : Event), (∀ u, ¬ s.takenAt e u) → exec e.row s = .next s)

/-- A reset of either kind leaves every block its reset values. A power-on reset copies the stored image into the working image; a pin
reset, which a low of at least 10 microseconds on RSTN causes, keeps the working image, and a shorter low is ignored (R167, R187). Only
what the stored image holds depends on a store in progress: `ResetDuringAStoreLeavesAMixture` says what that leaves. -/
def Obligations.ResetsLeaveTheResetValues : Prop :=
  ∀ (s : State) (lines : PerTrain Bool),
    (∃ t, exec (.powerOnReset lines) s = .next t ∧ t.HoldsResetValues lines ∧
      t.prof.working = t.prof.stored ∧ t.pending = s.pending ∧
      ((∀ source, s.prof.activity ≠ .storing source) → t.prof.stored = s.prof.stored)) ∧
    (∀ low : Nat,
      (low < 10 → exec (.pinReset low lines) s = .next s) ∧
      (10 ≤ low → ∃ t, exec (.pinReset low lines) s = .next t ∧ t.HoldsResetValues lines ∧
        t.prof.working = s.prof.working ∧ t.pending = s.pending ∧
        ((∀ source, s.prof.activity ≠ .storing source) → t.prof.stored = s.prof.stored)))

/-- A reset of either kind during a store ends it where it stands: either the third step had completed, or field 158 holds
4,294,967,295 and every other field holds its new or its old value (R164); an image left so fails its check. Every other value is a reset
value, as after any reset (R167). The free values (log entry 4) decide which image is left; this holds for all of them. -/
def Obligations.ResetDuringAStoreLeavesAMixture : Prop :=
  ∀ (s : State) (lines : PerTrain Bool) (source : Image) (low : Nat), s.prof.activity = .storing source → 10 ≤ low →
    ∃ t u, exec (.powerOnReset lines) s = .next t ∧ exec (.pinReset low lines) s = .next u ∧
      t.HoldsResetValues lines ∧ u.HoldsResetValues lines ∧ t.pending = s.pending ∧ u.pending = s.pending ∧
      t.prof.working = t.prof.stored ∧ u.prof.working = s.prof.working ∧ u.prof.stored = t.prof.stored ∧
      (t.prof.stored = source ∨
        (t.prof.stored.word 158 = 4294967295#32 ∧
          (∀ id, 1 ≤ id → id ≤ 157 →
            t.prof.stored.word id = source.word id ∨ t.prof.stored.word id = s.prof.stored.word id) ∧
          failingField t.prof.stored ≠ none))

/-- The output pins. While a reset is held every permit is low, every ATTN line released, every transmit line idle high and FAULT low
(R187). Otherwise a permit is high exactly in SERVICE while its train is STARTING, RUNNING or STOPPING (R108), an ATTN line is low exactly
while some cause flag of its port is set with its enable in force on (R185), FAULT is low exactly in FAULTED or while profile-bad is set
(R172), and a transmit line idles high while its queue is empty, and otherwise sends its frames one after another in their order, each a
break and then its kind, length, payload and CRC bytes (R174, R176, R179). -/
def Obligations.OutputPinsFollowTheState : Prop :=
  (∀ s : State, s.holdReset.resetHeld = true) ∧
  (∀ s : State, s.resetHeld = true →
    (∀ x : Train, s.pins.permitHigh.get x = false) ∧ (∀ p : Port, s.pins.attnLow p = false ∧ s.pins.tx p = .idleHigh) ∧
    s.pins.faultLow = true) ∧
  (∀ s : State, s.resetHeld = false →
    (∀ x : Train, s.pins.permitHigh.get x = true ↔
      s.prof.mode = .service ∧
        ((s.train x).state = .starting ∨ (s.train x).state = .running ∨ (s.train x).state = .stopping)) ∧
    (∀ p : Port, s.pins.attnLow p = true ↔
      (s.port p).causes &&&
        (if p = .tp ∧ s.prj.checkMode = .notify then (s.port p).enables ||| 0x01#8 else (s.port p).enables) ≠ 0#8) ∧
    (s.pins.faultLow = true ↔ s.prof.mode = .faulted ∨ s.prof.bad = true) ∧
    (∀ p : Port, (s.port p).output = [] → s.pins.tx p = .idleHigh) ∧
    (∀ (p : Port) (f : Frame) (rest : List Frame), (s.port p).output = f :: rest →
      s.pins.tx p =
        .sending (.brk :: (f.kind :: f.length :: (f.payload ++ [f.crc])).map .byte ++ sentLine rest))) ∧
  sentLine [] = [] ∧
  (∀ (f : Frame) (rest : List Frame),
    sentLine (f :: rest) = .brk :: (f.kind :: f.length :: (f.payload ++ [f.crc])).map .byte ++ sentLine rest) ∧
  (∀ bytes : List Byte,
    let shift := fun r : Byte => if r.msb then (r <<< 1) ^^^ 0x2F#8 else r <<< 1
    crc8 bytes = bytes.foldl (fun r b => (List.range 8).foldl (fun r _ => shift r) (r ^^^ b)) 0xFF#8) ∧
  (∀ (kind : Byte) (payload : List Byte),
    Frame.make kind payload =
      { kind := kind, length := BitVec.ofNat 8 payload.length, payload := payload
        crc := crc8 (kind :: BitVec.ofNat 8 payload.length :: payload) })

/-! ### The station ports -/

/-- The status byte, bit by bit (R181); and STATUS, answered on every port in every mode with the fields of R186, in their order.
The codes of the clock state and of the activity are read from R178 (log entry 28). -/
def Obligations.StatusShowsTheState : Prop :=
  ∀ (s : State) (p : Port),
    (s.statusByte p).getLsbD 7 = (s.port p).resetSeen ∧
    (s.statusByte p).getLsbD 6 = decide ((s.port p).causes &&& s.enablesInForce p ≠ 0#8) ∧
    (s.statusByte p).extractLsb' 4 2 =
      (match s.prof.mode with
        | .checking => 0#2
        | .maintenance => 1#2
        | .service => 2#2
        | .faulted => 3#2) ∧
    (s.statusByte p).getLsbD 3 = decide (s.inv.status = .tracking ∨ s.inv.status = .drifted) ∧
    (s.statusByte p).getLsbD 2 = decide (s.inv.status = .drifted) ∧
    (s.statusByte p).getLsbD 1 = decide (s.inv.metering = .stale) ∧
    (s.statusByte p).getLsbD 0 = (s.prj.running.isSome || s.prj.waiting.isSome) ∧
    (s.free p →
      ∃ t, exec (.status p) s = .next t ∧ s.onlyChanges t (frameParts p) ∧
        (t.rsv = if p = .gp then s.linkAfterFrame else s.rsv) ∧
        s.repliedPlain t p 0x01#8 .ok
          (u16 s.prof.siteCode ++ u8 s.prof.mode.code ++ yesNo s.prof.bad ++ u8 s.prof.lastCheck.code ++
            u8 s.prof.failingField ++ u8 s.prof.activity.code ++ u8 (if s.tb.clock = none then 1 else 2) ++
            u32 ((s.tb.clock.map Clock.interval).getD 0) ++
            [(s.port .pp).causes, (s.port .tp).causes, (s.port .gp).causes] ++ u8 (s.port p).errors ++
            u8 (if s.prof.bad then 16 else (s.settings.map Settings.portErrorLimit).getD 16) ++
            (if p = .tp then u8 s.prj.checkMode.code else [])))

/-- The frame assembler of a port, event by event of its receive line (R175 to R177), over a line of any length. In WAITING everything but
a break is ignored, and a break begins a frame. Within a frame, a break, a parity error, a missing stop bit, a gap after its first byte, a
length byte above 120 and a wrong CRC byte discard it; so does its last byte where a response is owed. Each discard is counted once: the
count stays at 255 once it reaches it, and LINK_FAULT is raised where the count is then at or above the limit in use, 16 while profile-bad
is set (R182, R172). That LINK_FAULT is raised again at an error counted at 255 is the model's reading (log entry 34, DEDUCED). The last
byte of a good frame with nothing owed is counted by nothing and returns the assembler to WAITING, so that what follows it is ignored
until a break; its request is another row's command (log entry 17, DESIGN CHOICE). Such a command is a whole frame with its own break:
where a frame is in progress, that break discards it and counts it, whether or not a response is owed, and the command then does what it
does in the state so reached, `State.cutOff`. A received frame with a length byte above 120 or a wrong CRC is such a line. -/
def Obligations.DiscardedFramesAreCounted : Prop :=
  (∀ (p : Port) (kind length : Byte) (rest : List Byte), 120 < length.toNat →
    receive p (kind :: length :: rest) = .frameDiscard p (.brk :: (kind :: length :: rest).map .byte)) ∧
  (∀ (p : Port) (kind sent : Byte) (payload : List Byte), payload.length ≤ 120 →
    sent ≠ crc8 (kind :: BitVec.ofNat 8 payload.length :: payload) →
    receive p (kind :: BitVec.ofNat 8 payload.length :: (payload ++ [sent])) =
      .frameDiscard p (.brk :: (kind :: BitVec.ofNat 8 payload.length :: (payload ++ [sent])).map .byte)) ∧
  (∀ (s : State) (p : Port), exec (.frameDiscard p []) s = .next s) ∧
  (∀ (s t : State) (p : Port) (event : LineEvent) (line : List LineEvent), exec (.frameDiscard p [event]) s = .next t →
    exec (.frameDiscard p (event :: line)) s = exec (.frameDiscard p line) t) ∧
  (∀ (s : State) (p : Port),
    let leaves := fun (event : LineEvent) (x : PortState) =>
      ∃ t, exec (.frameDiscard p [event]) s = .next t ∧ s.onlyChanges t [portPart p] ∧ t.port p = x
    let discarded := fun a : Assembler => s.afterError p { s.port p with assembler := a }
    ((s.port p).assembler = .waiting →
      leaves .brk { s.port p with assembler := .inFrame [] } ∧ ∀ event, event ≠ .brk → leaves event (s.port p)) ∧
    (∀ bytes, (s.port p).assembler = .inFrame bytes →
      leaves .brk (discarded (.inFrame [])) ∧ leaves .parityError (discarded .waiting) ∧
      leaves .noStopBit (discarded .waiting) ∧
      (bytes = [] → leaves .gap (s.port p)) ∧ (bytes ≠ [] → leaves .gap (discarded .waiting)) ∧
      ∀ b : Byte,
        let arrives := leaves (.byte b) { s.port p with assembler := .inFrame (bytes ++ [b]) }
        (bytes = [] → arrives) ∧
        (∀ (kind length : Byte) (rest : List Byte), bytes ++ [b] = kind :: length :: rest →
          (120 < length.toNat → leaves (.byte b) (discarded .waiting)) ∧
          (length.toNat ≤ 120 → rest.length ≤ length.toNat → arrives) ∧
          (∀ (payload : List Byte) (crc : Byte), length.toNat ≤ 120 → rest = payload ++ [crc] →
            payload.length = length.toNat →
            (crc ≠ crc8 (kind :: length :: payload) ∨ (s.port p).owed = true → leaves (.byte b) (discarded .waiting)) ∧
            (crc = crc8 (kind :: length :: payload) → (s.port p).owed = false →
              leaves (.byte b) { s.port p with assembler := .waiting }))))) ∧
  (∀ (s : State) (c : Instr) (p : Port) (bytes : List Byte), c.wellFormed = true →
    ((∃ kind payload, requestOf c = some (p, kind, payload)) ∨ (∃ kind, c = .unknownKind p kind) ∨
      ∃ kind length, c = .badLength p kind length) →
    (s.port p).assembler = .inFrame bytes →
    exec c s = exec c (s.cutOff p))

/-- Every good frame that completes on a port while a response is owed there is discarded and counted and does nothing else, whatever its
kind and length (R177 step 1, R182); where its own break finds a frame in progress, that one is discarded and counted first (R175, log
entry 17). That LINK_FAULT is raised again at an error counted at 255 is the model's reading (log entry 34, DEDUCED). -/
def Obligations.FramesWhileAResponseIsOwedAreDiscarded : Prop :=
  ∀ (s : State) (c : Instr) (p : Port), (s.port p).owed = true → c.wellFormed = true →
    ((∃ kind payload, requestOf c = some (p, kind, payload)) ∨ (∃ kind, c = .unknownKind p kind) ∨
      ∃ kind length, c = .badLength p kind length) →
    ∃ t, exec c s = .next t ∧ s.onlyChanges t [portPart p] ∧
      ((s.port p).assembler = .waiting → t.port p = s.afterError p (s.port p)) ∧
      (∀ bytes, (s.port p).assembler = .inFrame bytes → t.port p = (s.cutOff p).afterError p ((s.cutOff p).port p))

/-- A good frame of an unknown kind is answered in a frame of kind 0xFF and not counted; one of a wrong length is counted and answered
BAD_LENGTH; neither acts on anything but its port and, on the grid port, the link (R177 steps 2 and 3, R141).
That a BAD_LENGTH is counted before its response is built is the model's choice (log entry 12); so is that LINK_FAULT is raised again at
an error counted at 255 (log entry 34). -/
def Obligations.UnknownKindAndBadLengthAreAnswered : Prop :=
  ∀ (s : State) (p : Port), s.free p →
    (∀ kind, catalogue p kind = none →
      ∃ t, exec (.unknownKind p kind) s = .next t ∧ s.repliedPlain t p 0x7F#8 .unknownKind [] ∧
        s.onlyChanges t (frameParts p) ∧ t.rsv = if p = .gp then s.linkAfterFrame else s.rsv) ∧
    (∀ (kind length : Byte) (n : Nat), catalogue p kind = some n → length.toNat ≠ n → length.toNat ≤ 120 →
      ∃ t, exec (.badLength p kind length) s = .next t ∧
        t.port p =
          s.afterError p
            { s.port p with
              assembler := .waiting, owed := true, resetSeen := false
              output := (s.port p).output ++
                [Frame.make (kind + 0x80#8) [s.shownStatus t p, Result.badLength.code]] } ∧
        s.onlyChanges t (frameParts p) ∧ t.rsv = if p = .gp then s.linkAfterFrame else s.rsv)

/-- When the owed response has been sent, the port owes nothing; the response and the notices ahead of it have left the queue (R179). A
response that stands in no queue cannot have been sent (log entry 3). -/
def Obligations.ResponseSentFreesThePort : Prop :=
  ∀ (s : State) (p : Port),
    (∀ (notices : List Frame) (response : Frame) (rest : List Frame),
      (s.port p).owed = true → (s.port p).output = notices ++ response :: rest →
      (∀ f ∈ notices, f.kind = 0xC0#8) → response.kind ≠ 0xC0#8 →
      ∃ t, exec (.responseSent p) s = .next t ∧ s.onlyChanges t [portPart p] ∧
        t.port p = { s.port p with owed := false, output := rest }) ∧
    ((∀ f ∈ (s.port p).output, f.kind = 0xC0#8) → exec (.responseSent p) s = .next s)

/-- CAUSES shows the port's cause flags and clears every flag shown; the response shows ATTN as it stood before (R184, R185). ENABLES
writes the enables of the port's causes and ignores the other bits; the response carries the enables in force, in which CHECK_DONE is on
in NOTIFY mode whatever was written (R184). CLEAR LINK is answered with the error count as it stood, which then becomes 0; the LINK_FAULT
flag stays (R182). -/
def Obligations.CauseAndErrorRequestsAreAnswered : Prop :=
  ∀ (s : State) (p : Port), s.free p →
    (∃ t, exec (.causes p) s = .next t ∧ s.onlyChanges t (frameParts p) ∧
      (t.rsv = if p = .gp then s.linkAfterFrame else s.rsv) ∧ t.attention p = false ∧
      t.port p =
        { s.port p with
          assembler := .waiting, owed := true, resetSeen := false, causes := 0#8
          output := (s.port p).output ++ [Frame.make 0x82#8 [s.statusByte p, 0x00#8, (s.port p).causes]] }) ∧
    (∀ mask : Byte,
      ∃ t, exec (.enables p mask) s = .next t ∧ s.onlyChanges t (frameParts p) ∧
        (t.rsv = if p = .gp then s.linkAfterFrame else s.rsv) ∧
        t.port p =
          { s.port p with
            assembler := .waiting, owed := true, resetSeen := false
            enables := if p = .gp then mask &&& 0x0F#8 else mask
            output := (s.port p).output ++
              [Frame.make 0x83#8
                [s.shownStatus t p, 0x00#8,
                  (if p = .gp then mask &&& 0x0F#8
                   else if p = .tp ∧ s.prj.checkMode = .notify then mask ||| 0x01#8 else mask)]] }) ∧
    (∃ t, exec (.clearLink p) s = .next t ∧ s.onlyChanges t (frameParts p) ∧
      (t.rsv = if p = .gp then s.linkAfterFrame else s.rsv) ∧
      t.port p =
        { s.port p with
          assembler := .waiting, owed := true, resetSeen := false, errors := 0
          output := (s.port p).output ++ [Frame.make 0x84#8 (s.shownStatus t p :: 0x00#8 :: u8 (s.port p).errors)] })

/-- Every request a station can send is received as the command it stands for: no bit of a request is dropped (R174, R176, R178,
sections 10.8 and 10.9). A DECLARE OFFLINE is received as such whatever start count it carries, since the coordinator ignores it; a
DECLARE with any other code is the row DECLARE_AVAILABLE's (log entry 8, DEDUCED). -/
def Obligations.EveryRequestIsReceivedAsSent : Prop :=
  (∀ (c : Instr) (p : Port) (bytes : List Byte), c.wellFormed = true → encode c = some (p, bytes) → receive p bytes = c) ∧
  (∀ train starts : Byte, receive .pp (frameBytes 0x12#8 [train, 2#8, starts]) = .declareOffline train)

/-! ### Inventory -/

/-- A METER with a status code outside 1 to 5 or an output above 250,000 kW for a train that is checked is refused with BAD_FIELD, and
nothing in it is taken (R4). One whose checked fields are good is taken in every mode: every baseline worked takes its new value, the last
METER time becomes the count now, the metering is FRESH, the epoch stays; the metered net output is formed; the response carries the
target, the orders by train state and the inventory as they then stand (R4, R7, R19, R20, R129, R130). The order of the blocks within a
METER is the model's (log entry 18). -/
def Obligations.MeterIsTakenOrRefused : Prop :=
  ∀ (s : State) (report : MeterReport), s.free .pp →
    (∀ x : Train, (∀ c, s.settings = some c → (c.trains.get x).installed = true) →
      ((report.trains.get x).status.toNat < 1 ∨ 5 < (report.trains.get x).status.toNat ∨
        250000 < (report.trains.get x).output.toNat) →
      ∃ t, exec (.meter report) s = .next t ∧ s.onlyChanges t [.pp] ∧ s.repliedPlain t .pp 0x10#8 .badField []) ∧
    ((∀ x : Train, (∀ c, s.settings = some c → (c.trains.get x).installed = true) →
        1 ≤ (report.trains.get x).status.toNat ∧ (report.trains.get x).status.toNat ≤ 5 ∧
          (report.trains.get x).output.toNat ≤ 250000) →
      ∃ t, exec (.meter report) s = .next t ∧
        s.onlyChanges t [.inv, .prj, .trc, .du, .slog, .pp, .tp] ∧
        t.inv.lastMeter = s.now ∧ t.inv.metering = .fresh ∧ t.inv.epoch = s.inv.epoch ∧
        (∀ x : Train, t.inv.massBase.get x =
          if s.settings = none ∨ (s.trainCfg x).installed = true then some (report.trains.get x).mass
          else s.inv.massBase.get x) ∧
        (∀ k : Tier, t.inv.heatInBase.get k = some (report.tiers.get k).heatIn ∧
          t.inv.heatOutBase.get k = some (report.tiers.get k).heatOut) ∧
        t.trc.permitHold = (if s.inv.metering = .stale then none else s.trc.permitHold) ∧
        (s.inv.metering = .stale → (t.port .tp).causes &&& Cause.mask .tp .inventory = Cause.mask .tp .inventory) ∧
        t.du.metered =
          (([Train.e1, .e2, .e3].map fun x => if (t.train x).state = .absent then 0 else (t.train x).output).sum : Int) -
          (([Train.c1, .c2, .c3, .c4].map fun x => if (t.train x).state = .absent then 0 else (t.train x).output).sum : Int) ∧
        s.replied t .pp 0x10#8 .ok
          (s32 t.du.target ++
            (Train.all.flatMap fun x =>
              match (t.train x).state with
              | .starting => u8 1 ++ u32 0
              | .running => u8 0 ++ u32 (t.du.setpoint.get x)
              | .stopping => u8 2 ++ u32 0
              | _ => u8 0 ++ u32 0) ++
            u32 t.inv.mass ++ u32 t.inv.heat.t1 ++ u32 t.inv.heat.t2 ++ u32 t.inv.heat.t3 ++
            u16 (match s.settings with | none => 0 | some c => forwardTable c.table t.inv.mass) ++
            u8 t.inv.drift ++ u32 t.inv.epoch.toNat))

/-- The account after a METER taken: each totaliser's forward count, across at most one wrap, is applied in the order of R4 step 2,
discarded above its plausibility limit, and held within the bounds (R5 to R8); an UNANCHORED inventory is not moved (R7). A saturated
application marks the open record CLAMPED and a discarded delta marks it DISCONTINUITY, and either raises CLAMP (R6, R8); with none, CLAMP
and the marks stay as they were. -/
def Obligations.MeterMovesTheAccount : Prop :=
  ∀ (s t : State) (report : MeterReport), s.free .pp → s.meterValid report = true → exec (.meter report) s = .next t →
    (s.settings = none → s.inv.status = .unanchored →
      t.inv.mass = s.inv.mass ∧ t.inv.heat = s.inv.heat ∧ t.slog = s.slog ∧ s.flagged t .pp .clamp False) ∧
    (s.inv.status = .unanchored → t.inv.status = .unanchored ∧ t.inv.drift = s.inv.drift) ∧
    (∀ c, s.settings = some c →
      let accounts := [s.massAccount c report, s.heatAccount c report .t1, s.heatAccount c report .t2, s.heatAccount c report .t3]
      let saturated := accounts.any Account.saturated
      let discarded := accounts.any Account.discarded
      t.inv.mass = (s.massAccount c report).value ∧
      (∀ k : Tier, t.inv.heat.get k = (s.heatAccount c report k).value) ∧
      (s.inv.status = .unanchored → t.inv.mass = s.inv.mass ∧ t.inv.heat = s.inv.heat ∧ saturated = false) ∧
      s.flagged t .pp .clamp (saturated = true ∨ discarded = true) ∧
      t.slog = { s.slog with
        current := s.slog.current.map fun r =>
          { r with
            flags :=
              { r.flags with
                clamped := r.flags.clamped || saturated, discontinuity := r.flags.discontinuity || discarded } } })

/-- The drift test of a METER on an anchored inventory: the count rises by 1, up to 255, where the estimated pressure of the account as the
totalisers left it differs from the measured one by more than the tolerance, and is 0 otherwise; at the drift limit a TRACKING
inventory becomes DRIFTED, which raises DRIFT and INVENTORY and requests a review (R9 to R11): it starts at once, from the account as
the totalisers left it, where no job runs and the clock is SET, and otherwise the pending-review flag is set (R70). In no other case is
DRIFT raised. That the review's snapshot shows the trains before the reports of this METER is the model's order (log entry 18). -/
def Obligations.DriftTestFollowsThePressure : Prop :=
  ∀ (s t : State) (report : MeterReport) (c : Settings), s.free .pp → s.meterValid report = true →
    s.inv.status ≠ .unanchored → s.settings = some c → exec (.meter report) s = .next t →
    let drifts := s.inv.status = .tracking ∧ c.driftLimit ≤ t.inv.drift
    t.inv.drift =
      (if (c.driftTolerance : Int) < |(forwardTable c.table t.inv.mass : Int) - (report.pressure.toNat : Int)| then
        min 255 (s.inv.drift + 1) else 0) ∧
    t.inv.status = (if drifts then .drifted else s.inv.status) ∧
    s.flagged t .pp .drift drifts ∧
    s.flagged t .tp .inventory (drifts ∨ s.inv.metering = .stale) ∧
    (drifts → s.prj.running = none → ∀ k, s.tb.clock = some k →
      ∃ snap, t.prj.running = some (.review snap) ∧ snap.clock = k ∧ snap.mass = t.inv.mass ∧ snap.heat = t.inv.heat ∧
        snap.status = .drifted ∧ snap.margin = 2 ∧ snap.epoch = s.inv.epoch ∧ snap.generation = s.trc.generation ∧
        (∀ x, snap.trains.get x = (s.train x).state) ∧ snap.book = s.book.blocks.map Block.terms ∧ snap.settings = c) ∧
    (drifts → s.prj.running ≠ none ∨ s.tb.clock = none → t.prj = { s.prj with pendingReview := true })

/-- ANCHOR in MAINTENANCE or SERVICE with settings loaded sets the account from the pressure and the heat figures, clamped to the table
and the capacities; the status becomes TRACKING, the drift count 0, the epoch one more; INVENTORY is raised on the trade port, CLAMP
on the plant port where something was clamped, and a review is requested (R13, R14). In any other case it is refused with WRONG_MODE
and nothing changes (R12). That one review starts, and leaves the pending-review flag clear, where a review was already pending is the
model's reading of R68 (log entry 10, DEDUCED). -/
def Obligations.AnchorSetsTheAccount : Prop :=
  ∀ (s : State) (pressure : Half) (heat : PerTier Word), s.free .pp →
    (∀ c, s.settings = some c → (s.prof.mode = .maintenance ∨ s.prof.mode = .service) →
      ∃ t, exec (.anchor pressure heat) s = .next t ∧ s.onlyChanges t [.inv, .prj, .pp, .tp] ∧
        t.inv =
          { s.inv with
            mass := inverseTable c.table pressure.toNat
            heat :=
              { t1 := min heat.t1.toNat c.tiers.t1.capacity, t2 := min heat.t2.toNat c.tiers.t2.capacity,
                t3 := min heat.t3.toNat c.tiers.t3.capacity }
            status := .tracking, drift := 0, epoch := s.inv.epoch + 1 } ∧
        s.reviewRequested t ∧ s.raisedOnly t .tp .inventory ∧
        s.replied t .pp 0x11#8 .ok
          (u32 t.inv.mass ++ u32 t.inv.heat.t1 ++ u32 t.inv.heat.t2 ++ u32 t.inv.heat.t3 ++ u32 t.inv.epoch.toNat) ∧
        (t.port .pp).causes =
          (if pressure.toNat < c.firstPressure ∨ c.lastPressure < pressure.toNat ∨
              c.tiers.t1.capacity < heat.t1.toNat ∨ c.tiers.t2.capacity < heat.t2.toNat ∨
              c.tiers.t3.capacity < heat.t3.toNat then
            (s.port .pp).causes ||| Cause.mask .pp .clamp
          else (s.port .pp).causes)) ∧
    ((s.settings = none ∨ s.prof.mode = .checking ∨ s.prof.mode = .faulted) →
      ∃ t, exec (.anchor pressure heat) s = .next t ∧ s.onlyChanges t [.pp] ∧
        s.repliedPlain t .pp 0x11#8 .wrongMode [])

/-- A loss tick takes floor(H_k × λ_k / 1,000,000) from each tier and the leakage from M, down to 0; an UNANCHORED inventory loses
nothing, and no other part changes but the second of the next loss tick, 60 later (R16, R38). `StepsKeepTheTimersOnTime` says that this
second is always a multiple of 60 and is never passed. Which of the parts of one tick comes first is the model's choice (log entry 2). -/
def Obligations.LossTickTakesRoundedDownLosses : Prop :=
  ∀ s u : State, s.takenAt .loss u →
    u.tb.nextLoss ≤ u.now ∧
    ∃ t, exec .lossTick s = .next t ∧ u.onlyChanges t [.tb, .inv] ∧
      t.tb = { u.tb with nextLoss := u.tb.nextLoss + 60 } ∧
      (u.inv.status = .unanchored → t.inv = u.inv) ∧
      (∀ c, u.inv.status ≠ .unanchored → u.settings = some c →
        t.inv =
          { u.inv with
            mass := u.inv.mass - c.leakage
            heat :=
              { t1 := u.inv.heat.t1 - u.inv.heat.t1 * c.tiers.t1.lossRate / 1000000
                t2 := u.inv.heat.t2 - u.inv.heat.t2 * c.tiers.t2.lossRate / 1000000
                t3 := u.inv.heat.t3 - u.inv.heat.t3 * c.tiers.t3.lossRate / 1000000 } })

/-- Stale onset, at a tick at which the count less the last METER time has reached the stale limit: the metering becomes STALE, INVENTORY is
raised, the permit hold starts from the onset, and an open record is marked (R17, R18, R109). Without loaded settings and while STALE
there is none. Which of the parts of one tick comes first is the model's choice (log entry 2). -/
def Obligations.StaleOnsetStartsThePermitHold : Prop :=
  (∀ s u : State, s.takenAt .stale u →
    ∃ c t, u.settings = some c ∧ u.inv.metering = .fresh ∧ u.inv.lastMeter + c.staleLimit ≤ u.now ∧ u.tb.phase = 0 ∧
      exec .staleOnset s = .next t ∧ u.onlyChanges t [.inv, .trc, .slog, .tp] ∧
      t.inv = { u.inv with metering := .stale } ∧
      t.trc = { u.trc with permitHold := some (u.now + c.permitHold) } ∧
      t.slog = { u.slog with
        current := u.slog.current.map fun r => { r with flags := { r.flags with stale := true } } } ∧
      u.raisedOnly t .tp .inventory) ∧
  (∀ s : State, s.settled → s.settings = none ∨ s.inv.metering = .stale → exec .staleOnset s = .next s)

/-! ### Trains -/

/-- A METER gives each train that is not ABSENT the state that its reported status leads to, and its whole record follows: where the state
stays, only the report is recorded; where it is left, its timer stops and the flag clears, and the timer of the new state is loaded; an
ABSENT train's fields are ignored (R97 to R99, R89, R96, R104, R105). A train that enters RUNNING gets the setpoint min stable, a tripped
one 0 (R128); the other setpoints stay. Each trip moves the generation on by 1, raises TRIP and CAPACITY and requests a review, after the
review of a drift in the same METER (R104, R111, R70). Where the last active train of a kind leaves the active states the dwell is loaded
(R122). -/
def Obligations.ReportedStatusesMoveTheTrains : Prop :=
  ∀ (s t : State) (report : MeterReport), s.free .pp → s.meterValid report = true → exec (.meter report) s = .next t →
    let trips := Train.all.filter fun x => decide ((t.train x).state = .tripped) && decide ((s.train x).state ≠ .tripped)
    let drifts := s.inv.status = .tracking ∧ t.inv.status = .drifted
    (∀ x : Train,
      ((s.train x).state = .absent → t.train x = s.train x ∧ t.du.setpoint.get x = s.du.setpoint.get x) ∧
      (∀ status, (s.train x).state ≠ .absent → Reported.ofCode (report.trains.get x).status = some status →
        let outcome := reportOutcome (s.train x).state status
        let shown :=
          { s.train x with reported := some status, output := (report.trains.get x).output.toNat, state := outcome.1 }
        let left :=
          { shown with
            minDown := .stopped, minRun := .stopped, start := .stopped, stop := .stopped, cooldown := .stopped }
        (outcome.1 = (s.train x).state → t.train x = shown) ∧
        ((s.train x).state ≠ .tripped → outcome.1 = .tripped → t.train x = { left with reason := outcome.2 }) ∧
        ((s.train x).state = .starting → outcome.1 = .running →
          t.train x = { left with minRun := { expiry := some (s.now + (s.trainCfg x).minRun), expired := false } }) ∧
        ((s.train x).state = .stopping → outcome.1 = .stopped →
          t.train x = { left with minDown := { expiry := some (s.now + (s.trainCfg x).minDown), expired := false } }) ∧
        ((s.train x).state = .tripped → outcome.1 = .locked →
          t.train x =
            { left with
              cooldown := { expiry := some (s.now + (s.trainCfg x).cooldown), expired := false }, releaseTaken := false }) ∧
        t.du.setpoint.get x =
          (if outcome.1 = .tripped ∧ (s.train x).state ≠ .tripped then 0
           else if (s.train x).state = .starting ∧ outcome.1 = .running then (s.trainCfg x).minStable
           else s.du.setpoint.get x))) ∧
    t.trc.generation = s.trc.generation + BitVec.ofNat 32 trips.length ∧
    s.flagged t .pp .trip (trips ≠ []) ∧ s.flagged t .tp .capacity (trips ≠ []) ∧
    t.afterRequests s.prj ((if drifts then 1 else 0) + trips.length) ∧
    s.DwellFollows t

/-- DECLARE AVAILABLE brings an OFFLINE train to STOPPED with its history seeded, clamped to the limit, and min-down loaded; DECLARE OFFLINE
withholds a STOPPED train and keeps its history. Each changes the generation, raises CAPACITY and requests a review (R92, R93, R111). In
any other state each is refused with TRAIN_ACTIVE, and one that names no train, or a code that is neither declaration, with
BAD_FIELD (R92, R93, R178; the row that carries such a code is log entry 8's). -/
def Obligations.DeclarationsMoveTheTrain : Prop :=
  ∀ (s : State) (number starts : Byte), s.free .pp →
    (∀ x : Train, Train.ofNumber number = some x → (s.train x).state = .offline →
      ∃ t, exec (.declareAvailable number 1#8 starts) s = .next t ∧ s.onlyChanges t [.trc, .prj, .pp, .tp] ∧
        t.trc =
          { records := s.trc.records.set x
              { s.train x with
                state := .stopped
                history := List.replicate (min starts.toNat (s.trainCfg x).startsPerDay) s.now
                minDown := { expiry := some (s.now + (s.trainCfg x).minDown), expired := false }
                minRun := .stopped, start := .stopped, stop := .stopped, cooldown := .stopped }
            generation := s.trc.generation + 1
            permitHold := s.trc.permitHold } ∧
        s.raisedOnly t .tp .capacity ∧ s.reviewRequested t ∧
        s.repliedPlain t .pp 0x12#8 .ok (u8 3 ++ u8 (min starts.toNat (s.trainCfg x).startsPerDay))) ∧
    (∀ x : Train, Train.ofNumber number = some x → (s.train x).state = .stopped →
      ∃ t, exec (.declareOffline number) s = .next t ∧ s.onlyChanges t [.trc, .prj, .pp, .tp] ∧
        t.trc =
          { records := s.trc.records.set x
              { s.train x with
                state := .offline, minDown := .stopped, minRun := .stopped, start := .stopped, stop := .stopped,
                cooldown := .stopped }
            generation := s.trc.generation + 1
            permitHold := s.trc.permitHold } ∧
        s.raisedOnly t .tp .capacity ∧ s.reviewRequested t ∧ s.repliedPlain t .pp 0x12#8 .ok (u8 2)) ∧
    (∀ x : Train, Train.ofNumber number = some x → (s.train x).state ≠ .offline →
      s.onlyAnswers (.declareAvailable number 1#8 starts) .pp 0x12#8 .trainActive []) ∧
    (∀ x : Train, Train.ofNumber number = some x → (s.train x).state ≠ .stopped →
      s.onlyAnswers (.declareOffline number) .pp 0x12#8 .trainActive []) ∧
    (∀ code : Byte, code ≠ 2#8 → (Train.ofNumber number = none ∨ code ≠ 1#8) →
      s.onlyAnswers (.declareAvailable number code starts) .pp 0x12#8 .badField []) ∧
    (Train.ofNumber number = none → s.onlyAnswers (.declareOffline number) .pp 0x12#8 .badField []) ∧
    (Train.ofNumber number = none ↔ number.toNat = 0 ∨ 7 < number.toNat)

/-- RELEASE for a LOCKED train sets release-taken and tests the release: the train enters STOPPED with its min-down flag set and no reason
exactly where its cooldown has expired and, under EDGE_AND_LEVEL, its line is high; otherwise it stays LOCKED (R106, R107). A train that
is not LOCKED gives NOT_LOCKED, and no train BAD_FIELD (R106). -/
def Obligations.ReleaseNeedsCooldownAndLine : Prop :=
  ∀ (s : State) (number : Byte), s.free .pp →
    (∀ x : Train, Train.ofNumber number = some x → (s.train x).state = .locked →
      let ready := (s.train x).cooldown.expired = true ∧
        ((s.train x).sensitivity = .edgeAndLevel → (s.train x).lineHigh = true)
      (ready →
        ∃ t, exec (.release number) s = .next t ∧ s.onlyChanges t [.trc, .prj, .pp, .tp] ∧
          t.trc =
            { records := s.trc.records.set x
                { s.train x with
                  state := .stopped, reason := none, releaseTaken := false
                  minDown := { expiry := none, expired := true }
                  minRun := .stopped, start := .stopped, stop := .stopped, cooldown := .stopped }
              generation := s.trc.generation + 1
              permitHold := s.trc.permitHold } ∧
          s.raisedOnly t .tp .capacity ∧ s.reviewRequested t ∧ s.repliedPlain t .pp 0x13#8 .ok (u8 3)) ∧
      (¬ ready →
        ∃ t, exec (.release number) s = .next t ∧ s.onlyChanges t [.trc, .pp] ∧
          t.trc = { s.trc with records := s.trc.records.set x { s.train x with releaseTaken := true } } ∧
          s.repliedPlain t .pp 0x13#8 .ok (u8 8))) ∧
    (∀ x : Train, Train.ofNumber number = some x → (s.train x).state ≠ .locked →
      ∃ t, exec (.release number) s = .next t ∧ s.onlyChanges t [.pp] ∧ s.repliedPlain t .pp 0x13#8 .notLocked []) ∧
    (Train.ofNumber number = none →
      ∃ t, exec (.release number) s = .next t ∧ s.onlyChanges t [.pp] ∧ s.repliedPlain t .pp 0x13#8 .badField [])

/-- TRAIN READ is answered in every mode with the train's record, in the order of R112, and changes nothing; one that names no train is
refused with BAD_FIELD (R112, R178).
Absent values and the code of the kind are read from R178 (log entries 13 and 28). -/
def Obligations.TrainReadShowsTheRecord : Prop :=
  ∀ (s : State) (number : Byte), s.free .pp →
    (∀ x : Train, Train.ofNumber number = some x →
      let r := s.train x
      let timer := fun m : Timer =>
        (match m.expiry with
          | none => [0x00#8, 0xFF#8, 0xFF#8, 0xFF#8, 0xFF#8]
          | some e => [0x01#8] ++ u32 (e - s.now)) ++ [if m.expired then 1#8 else 0#8]
      ∃ t, exec (.trainRead number) s = .next t ∧ s.onlyChanges t [.pp] ∧
        s.repliedPlain t .pp 0x14#8 .ok
          (u8 (if x.kind = .compressor then 1 else 2) ++ u8 r.state.code ++
            u8 (match r.reason with | none => 0 | some q => q.code) ++
            timer r.minDown ++ timer r.minRun ++ timer r.start ++ timer r.stop ++ timer r.cooldown ++
            [if r.releaseTaken then 1#8 else 0#8] ++ u8 r.history.length ++
            (match r.history with
              | [] => List.replicate 6 0xFF#8
              | oldest :: _ => u48 oldest) ++
            u8 (s.trainCfg x).startsPerDay ++ u8 (match r.reported with | none => 0 | some q => q.code) ++
            u32 r.output ++ [if r.lineHigh then 1#8 else 0#8] ++
            u8 (if r.sensitivity = .edge then 0 else 1) ++
            [if s.prof.mode = .service ∧ (r.state = .starting ∨ r.state = .running ∨ r.state = .stopping) then 1#8 else 0#8] ++
            u32 s.trc.generation.toNat ++
            (match s.trc.permitHold with
              | none => [0x00#8, 0xFF#8, 0xFF#8, 0xFF#8, 0xFF#8]
              | some e => [0x01#8] ++ u32 (e - s.now)))) ∧
    (Train.ofNumber number = none →
      ∃ t, exec (.trainRead number) s = .next t ∧ s.onlyChanges t [.pp] ∧ s.repliedPlain t .pp 0x14#8 .badField [])

/-- The timers of a train and its start history run out at their due time. Min-down and min-run stop and set their flag; nothing else
changes (R89). The start timer of a STARTING train and the stop timer of a STOPPING train trip it, with reasons START_TIMEOUT and
STOP_TIMEOUT (R90, R104). Starts whose age has reached 86,400 s leave the front of the history, and no other entry does (R91). An event is
taken in the state `u` in which it falls due; which of the parts of one tick comes first is the model's choice (log entry 2). -/
def Obligations.TrainTimersRunOut : Prop :=
  ∀ (s u : State) (x : Train),
    (s.takenAt (.minDown x) u → ∃ due, (u.train x).minDown.expiry = some due ∧ due ≤ u.now ∧
      ∃ t, exec (.minDownExpiry x) s = .next t ∧ u.onlyChanges t [.trc] ∧
        t.trc = { u.trc with
          records := u.trc.records.set x { u.train x with minDown := { expiry := none, expired := true } } }) ∧
    (s.takenAt (.minRun x) u → ∃ due, (u.train x).minRun.expiry = some due ∧ due ≤ u.now ∧
      ∃ t, exec (.minRunExpiry x) s = .next t ∧ u.onlyChanges t [.trc] ∧
        t.trc = { u.trc with
          records := u.trc.records.set x { u.train x with minRun := { expiry := none, expired := true } } }) ∧
    (s.takenAt (.start x) u → (u.train x).state = .starting →
      ∃ due, (u.train x).start.expiry = some due ∧ due ≤ u.now ∧
        ∃ t, exec (.startTimerExpiry x) s = .next t ∧ u.Trips t x .startTimeout) ∧
    (s.takenAt (.stop x) u → (u.train x).state = .stopping →
      ∃ due, (u.train x).stop.expiry = some due ∧ due ≤ u.now ∧
        ∃ t, exec (.stopTimerExpiry x) s = .next t ∧ u.Trips t x .stopTimeout) ∧
    (s.takenAt (.prune x) u → (u.train x).history.Pairwise (· ≤ ·) →
      ∃ oldest rest, (u.train x).history = oldest :: rest ∧ oldest + 86400 ≤ u.now ∧
        ∃ t, exec (.startHistoryPrune x) s = .next t ∧ u.onlyChanges t [.trc] ∧
          t.trc = { u.trc with
            records := u.trc.records.set x
              { u.train x with history := (u.train x).history.filter fun stamp => decide (u.now < stamp + 86400) } })

/-- The cooldown of a LOCKED train runs out: the flag is set and RELEASE_READY is raised on the plant port; the train is released where
release-taken is set and the line allows it, and otherwise stays LOCKED (R89, R105, R107).
Which of the parts of one tick comes first is the model's choice (log entry 2). -/
def Obligations.CooldownExpiryRaisesReleaseReady : Prop :=
  ∀ (s u : State) (x : Train), s.takenAt (.cooldown x) u → (u.train x).state = .locked →
    let ready := (u.train x).releaseTaken = true ∧ ((u.train x).sensitivity = .edgeAndLevel → (u.train x).lineHigh = true)
    ∃ due t, (u.train x).cooldown.expiry = some due ∧ due ≤ u.now ∧ exec (.cooldownExpiry x) s = .next t ∧
      u.raisedOnly t .pp .releaseReady ∧
      (ready →
        u.onlyChanges t [.trc, .prj, .pp, .tp] ∧ u.raisedOnly t .tp .capacity ∧ u.reviewRequested t ∧
        t.trc =
          { records := u.trc.records.set x
              { u.train x with
                state := .stopped, reason := none, releaseTaken := false
                minDown := { expiry := none, expired := true }
                minRun := .stopped, start := .stopped, stop := .stopped, cooldown := .stopped }
            generation := u.trc.generation + 1
            permitHold := u.trc.permitHold }) ∧
      (¬ ready →
        u.onlyChanges t [.trc, .pp] ∧
        t.trc = { u.trc with
          records := u.trc.records.set x { u.train x with cooldown := { expiry := none, expired := true } } })

/-- When the permit hold runs out, it stops, and every active train is TRIPPED with reason LINK, in the order C1 to E3; no other train is
touched; each trip moves the generation on by 1, raises TRIP and CAPACITY and requests a review, and the dwell is loaded (R109, R104,
R111, R122, R128).
Which of the parts of one tick comes first is the model's choice (log entry 2). -/
def Obligations.PermitHoldExpiryTripsActiveTrains : Prop :=
  ∀ s u : State, s.takenAt .permitHold u →
    ∃ due t, u.trc.permitHold = some due ∧ due ≤ u.now ∧ exec .permitHoldExpiry s = .next t ∧
      u.onlyChanges t [.prj, .trc, .du, .pp, .tp] ∧ t.trc.permitHold = none ∧ u.TripsActive t .link ∧
      ∀ x : Train, (u.train x).state.active = false → t.du.setpoint.get x = u.du.setpoint.get x

/-- A falling edge is recorded and trips a STOPPED or active train with reason TRIP_LINE; in LOCKED it loads the cooldown again and clears
release-taken; a TRIPPED, OFFLINE or ABSENT train's state is not touched (R101). A rising edge releases a LOCKED train under
EDGE_AND_LEVEL whose cooldown has expired and whose release is taken; in any other case it updates the recorded level and nothing else
(R103). -/
def Obligations.TripLineEdgesTripReloadAndRelease : Prop :=
  ∀ (s : State) (x : Train),
    ((s.train x).lineHigh = true →
      ((s.train x).state = .stopped ∨ (s.train x).state.active = true →
        ∃ t, exec (.tripFallingEdge x) s = .next t ∧
          (s.setTrain x { s.train x with lineHigh := false }).Trips t x .tripLine) ∧
      ((s.train x).state = .locked →
        ∃ t, exec (.tripFallingEdge x) s = .next t ∧ s.onlyChanges t [.trc] ∧
          t.trc = { s.trc with
            records := s.trc.records.set x
              { s.train x with
                lineHigh := false, releaseTaken := false
                cooldown := { expiry := some (s.now + (s.trainCfg x).cooldown), expired := false } } }) ∧
      ((s.train x).state = .tripped ∨ (s.train x).state = .offline ∨ (s.train x).state = .absent →
        ∃ t, exec (.tripFallingEdge x) s = .next t ∧ s.onlyChanges t [.trc] ∧
          t.trc = { s.trc with records := s.trc.records.set x { s.train x with lineHigh := false } })) ∧
    ((s.train x).lineHigh = false →
      let releases := (s.train x).state = .locked ∧ (s.train x).sensitivity = .edgeAndLevel ∧
        (s.train x).cooldown.expired = true ∧ (s.train x).releaseTaken = true
      (releases →
        ∃ t, exec (.tripRisingEdge x) s = .next t ∧ s.onlyChanges t [.trc, .prj, .tp] ∧
          s.raisedOnly t .tp .capacity ∧ s.reviewRequested t ∧
          t.trc =
            { records := s.trc.records.set x
                { s.train x with
                  lineHigh := true, state := .stopped, reason := none, releaseTaken := false
                  minDown := { expiry := none, expired := true }
                  minRun := .stopped, start := .stopped, stop := .stopped, cooldown := .stopped }
              generation := s.trc.generation + 1
              permitHold := s.trc.permitHold }) ∧
      (¬ releases →
        ∃ t, exec (.tripRisingEdge x) s = .next t ∧ s.onlyChanges t [.trc] ∧
          t.trc = { s.trc with records := s.trc.records.set x { s.train x with lineHigh := true } }))

/-! ### Profile and modes -/

/-- PROFILE READ gives any field of either image in every mode, but not of the stored image while a store is in progress; during a check a
read of the working image gives the value that the check is examining (R162). PROFILE WRITE replaces one working field, sets profile-bad
and with it the FAULT output, in MAINTENANCE with no check or store in progress. A field outside 1 to 158 is refused with BAD_FIELD; a
write that would change L or G is refused while the book holds a block or a check is in flight (R163, R62, R172). That the value being
examined is shown also where a memory fault has changed the field during the check is how the model reads R162 (log entry 33, DEDUCED). -/
def Obligations.ProfileFieldsAreReadAndWritten : Prop :=
  ∀ (s : State) (field image : Byte) (value : Word), s.free .pp →
    let id := field.toNat
    let ranged := 1 ≤ id ∧ id ≤ 158
    let idle := s.prof.activity = .idle
    let changes := (id = 2 ∨ id = 3) ∧ value ≠ s.prof.working.word id
    let refusesRead := fun r : Result => s.onlyAnswers (.profileRead field image) .pp 0x15#8 r []
    let refusesWrite := fun r : Result => s.onlyAnswers (.profileWrite field value) .pp 0x16#8 r []
    (ranged → image = 1#8 → (∀ purpose examined, s.prof.activity ≠ .verifying purpose examined) →
      s.onlyAnswers (.profileRead field image) .pp 0x15#8 .ok (u8 id ++ u8 1 ++ u32 (s.prof.working.word id).toNat)) ∧
    (∀ purpose examined, ranged → image = 1#8 → s.prof.activity = .verifying purpose examined →
      s.onlyAnswers (.profileRead field image) .pp 0x15#8 .ok (u8 id ++ u8 1 ++ u32 (examined.word id).toNat)) ∧
    (ranged → image = 2#8 → (∀ source, s.prof.activity ≠ .storing source) →
      s.onlyAnswers (.profileRead field image) .pp 0x15#8 .ok (u8 id ++ u8 2 ++ u32 (s.prof.stored.word id).toNat)) ∧
    (ranged → image = 2#8 → (∃ source, s.prof.activity = .storing source) → refusesRead .busy) ∧
    (¬ ranged ∨ (image ≠ 1#8 ∧ image ≠ 2#8) → refusesRead .badField) ∧
    (ranged → s.prof.mode = .maintenance → idle → (changes → s.book.blocks = [] ∧ s.inFlight = none) →
      ∃ t, exec (.profileWrite field value) s = .next t ∧ s.onlyChanges t [.prof, .pp] ∧
        t.prof = { s.prof with working := t.prof.working, bad := true } ∧ t.faultLine = true ∧
        (∀ j, 1 ≤ j → j ≤ 158 → t.prof.working.word j = if j = id then value else s.prof.working.word j) ∧
        s.repliedPlain t .pp 0x16#8 .ok (u8 id ++ u32 value.toNat)) ∧
    (¬ ranged → refusesWrite .badField) ∧
    (ranged → s.prof.mode ≠ .maintenance → refusesWrite .wrongMode) ∧
    (ranged → s.prof.mode = .maintenance → ¬ idle → refusesWrite .busy) ∧
    (ranged → s.prof.mode = .maintenance → idle → changes → s.book.blocks ≠ [] → refusesWrite .bookNotEmpty) ∧
    (ranged → s.prof.mode = .maintenance → idle → changes → s.book.blocks = [] → s.inFlight ≠ none → refusesWrite .busy)

/-- PROFILE STORE, in MAINTENANCE with no check or store in progress, takes the working values and writes all ones over the stored check
word; when the store completes, the stored image is the image taken and PROFILE is raised on the plant port; the working image and
profile-bad are not touched (R164). Elsewhere it is refused with WRONG_MODE or BUSY. That the all ones stand there as soon as the store is
taken is read from section 9.6 (log entry 4, DEDUCED), and that a completion with no store in progress changes nothing is the model's (log
entry 3, DEDUCED). -/
def Obligations.StoreWritesTheTakenImage : Prop :=
  ∀ s : State,
    (s.free .pp → s.prof.mode = .maintenance → s.prof.activity = .idle →
      ∃ t, exec .profileStore s = .next t ∧ s.onlyChanges t [.prof, .pp] ∧
        t.prof = { s.prof with stored := t.prof.stored, activity := .storing s.prof.working } ∧
        t.prof.stored.word 158 = 4294967295#32 ∧
        (∀ j, 1 ≤ j → j ≤ 157 → t.prof.stored.word j = s.prof.stored.word j) ∧
        s.repliedPlain t .pp 0x17#8 .started []) ∧
    (s.free .pp → s.prof.mode ≠ .maintenance → s.onlyAnswers .profileStore .pp 0x17#8 .wrongMode []) ∧
    (s.free .pp → s.prof.mode = .maintenance → s.prof.activity ≠ .idle →
      s.onlyAnswers .profileStore .pp 0x17#8 .busy []) ∧
    (∀ source, s.prof.activity = .storing source →
      ∃ t, exec .profileStoreCompletion s = .next t ∧ s.onlyChanges t [.prof, .pp] ∧
        t.prof = { s.prof with stored := source, activity := .idle } ∧ s.raisedOnly t .pp .profile) ∧
    ((∀ source, s.prof.activity ≠ .storing source) → exec .profileStoreCompletion s = .next s)

/-- PROFILE LOAD, PROFILE CHECK and ENTER SERVICE each start a check of the working image as it stands, the load after copying the stored
image and setting profile-bad; each is answered STARTED, and refused by mode, by a check or store in progress, and the load by a change
of L or G that the book or a check in flight forbids (R165, R166, R168, R160). -/
def Obligations.ChecksStartOnTheWorkingImage : Prop :=
  ∀ s : State, s.free .pp →
    let idle := s.prof.activity = .idle
    let changes := s.prof.stored.word 2 ≠ s.prof.working.word 2 ∨ s.prof.stored.word 3 ≠ s.prof.working.word 3
    (s.prof.mode = .maintenance → idle → (changes → s.book.blocks = [] ∧ s.inFlight = none) →
      ∃ t, exec .profileLoad s = .next t ∧ s.onlyChanges t [.prof, .pp] ∧ s.repliedPlain t .pp 0x18#8 .started [] ∧
        t.prof = { s.prof with
          working := s.prof.stored, bad := true, activity := .verifying .plain s.prof.stored }) ∧
    (s.prof.mode = .maintenance → idle → changes → s.book.blocks ≠ [] →
      s.onlyAnswers .profileLoad .pp 0x18#8 .bookNotEmpty []) ∧
    (s.prof.mode = .maintenance → idle → changes → s.book.blocks = [] → s.inFlight ≠ none →
      s.onlyAnswers .profileLoad .pp 0x18#8 .busy []) ∧
    (s.prof.mode ≠ .checking → idle →
      ∃ t, exec .profileCheck s = .next t ∧ s.onlyChanges t [.prof, .pp] ∧ s.repliedPlain t .pp 0x19#8 .started [] ∧
        t.prof = { s.prof with activity := .verifying .plain s.prof.working }) ∧
    (s.prof.mode = .maintenance → idle →
      ∃ t, exec .enterService s = .next t ∧ s.onlyChanges t [.prof, .pp] ∧ s.repliedPlain t .pp 0x1A#8 .started [] ∧
        t.prof = { s.prof with activity := .verifying .entry s.prof.working }) ∧
    (s.prof.mode ≠ .maintenance →
      s.onlyAnswers .profileLoad .pp 0x18#8 .wrongMode [] ∧ s.onlyAnswers .enterService .pp 0x1A#8 .wrongMode []) ∧
    (s.prof.mode = .maintenance → ¬ idle →
      s.onlyAnswers .profileLoad .pp 0x18#8 .busy [] ∧ s.onlyAnswers .enterService .pp 0x1A#8 .busy []) ∧
    (¬ idle → s.onlyAnswers .profileCheck .pp 0x19#8 .busy [])

/-- A check that passes clears profile-bad and hands its values out: the settings in force are the image's, the account is held within the
new bounds, with CLAMP and the mark CLAMPED where that changes it, trains follow their installed flags, the default check mode is applied
once, and PROFILE is raised. A new L that the milliseconds have reached takes a boundary at once. A POWER-UP check in CHECKING leads to
MAINTENANCE and an ENTRY check in MAINTENANCE to SERVICE, which takes the trip sensitivities, tests the LOCKED trains for release, requests
a review and loads the background timer; any other keeps the mode. Each train made ABSENT from an available state and each release moves
the generation on by 1, raises CAPACITY and requests a review (R2, R40, R65, R70, R86, R102, R107, R111, R134, R160, R161, R168, R170).
Beside the setpoints the Dispatch Unit stays as it was: that an active train made ABSENT loads no dwell is the model's choice (log entry
36, DESIGN CHOICE). The order within the completion is the model's (log entry 20, DEDUCED; that of the trains' installed flags DESIGN
CHOICE). -/
def Obligations.PassingCheckHandsOutItsValues : Prop :=
  ∀ (s : State) (purpose : Purpose) (image : Image),
    s.prof.activity = .verifying purpose image → failingField image = none →
    let c := Settings.ofImage image
    let leaves := purpose = .powerUp ∧ s.prof.mode = .checking
    let enters := purpose = .entry ∧ s.prof.mode = .maintenance
    let bounds := ∃ k, s.tb.clock = some k ∧ s.settings.map Settings.intervalLength ≠ some (image.field 2) ∧
      image.field 2 * 60000 ≤ k.millis
    let moded := fun causes : Byte => if leaves ∨ enters then causes ||| Cause.mask .gp .mode else causes
    ∃ t, exec .profileCheckCompletion s = .next t ∧
      s.onlyChanges t [.inv, .tb, .book, .prj, .trc, .du, .rsv, .slog, .prof, .pp, .tp, .gp, .settings] ∧
      t.settings = some c ∧
      t.prof =
        { s.prof with
          bad := false, lastCheck := .pass, failingField := 0, activity := .idle, siteCode := image.field 1
          mode := if leaves then .maintenance else if enters then .service else s.prof.mode
          background := if enters then some (s.now + 3600) else s.prof.background } ∧
      t.inv =
        { s.inv with
          mass := min s.inv.mass c.lastMass
          heat :=
            { t1 := min s.inv.heat.t1 c.tiers.t1.capacity, t2 := min s.inv.heat.t2 c.tiers.t2.capacity
              t3 := min s.inv.heat.t3 c.tiers.t3.capacity }
          massBase := t.inv.massBase } ∧
      (∀ x : Train, t.inv.massBase.get x = if (c.trains.get x).installed then s.inv.massBase.get x else none) ∧
      (let clamps := t.inv.mass ≠ s.inv.mass ∨ t.inv.heat ≠ s.inv.heat
        ∃ marked : SettlementLog,
          (clamps → marked = { s.slog with
            current := s.slog.current.map fun r => { r with flags := { r.flags with clamped := true } } }) ∧
          (¬ clamps → marked = s.slog) ∧
          t.port .pp =
            { s.port .pp with
              causes := (if t.inv.mass ≠ s.inv.mass ∨ t.inv.heat ≠ s.inv.heat then
                  (s.port .pp).causes ||| Cause.mask .pp .clamp else (s.port .pp).causes) ||| Cause.mask .pp .profile } ∧
          (¬ bounds →
            t.tb = s.tb ∧ t.book = s.book ∧ t.slog = marked ∧ t.rsv.granted = s.rsv.granted ∧
            t.port .gp = { s.port .gp with causes := moded (s.port .gp).causes }) ∧
          (bounds → ∀ k, s.tb.clock = some k → ∃ u v : State,
            s.onlyChanges u [.inv, .slog, .prof, .pp, .settings] ∧ u.inv = t.inv ∧ u.slog = marked ∧ u.settings = some c ∧
            u.TakesBoundary v k 0 ∧ t.tb = { s.tb with clock := v.tb.clock } ∧ t.book = v.book ∧ t.slog = v.slog ∧
            t.rsv.granted = v.rsv.granted ∧ t.port .gp = { v.port .gp with causes := moded (v.port .gp).causes })) ∧
      t.port .tp = { s.port .tp with causes := (t.port .tp).causes } ∧
      s.flagged t .tp .record (bounds ∧ s.slog.current ≠ none) ∧ s.flagged t .tp .mode (leaves ∨ enters) ∧
      (let removed := Train.all.filter fun x =>
          !(c.trains.get x).installed && (decide ((s.train x).state = .stopped) || (s.train x).state.active)
        let released := Train.all.filter fun x =>
          decide enters && (c.trains.get x).installed && decide ((s.train x).state = .locked) &&
            (s.train x).cooldown.expired && (s.train x).releaseTaken &&
            (decide ((t.train x).sensitivity = .edge) || (s.train x).lineHigh)
        (∀ x : Train, (c.trains.get x).installed = false →
          t.train x = { TrainRecord.afterReset (s.train x).lineHigh with sensitivity := (t.train x).sensitivity } ∧
            t.du.setpoint.get x = 0) ∧
        (∀ x : Train, (c.trains.get x).installed = true → x ∉ released →
          t.train x =
            { s.train x with
              state := if (s.train x).state = .absent then .offline else (s.train x).state
              sensitivity := (t.train x).sensitivity }) ∧
        (∀ x ∈ released,
          t.train x =
            { s.train x with
              state := .stopped, reason := none, releaseTaken := false, minDown := { expiry := none, expired := true }
              minRun := .stopped, start := .stopped, stop := .stopped, cooldown := .stopped
              sensitivity := (t.train x).sensitivity }) ∧
        t.trc.generation = s.trc.generation + BitVec.ofNat 32 (removed.length + released.length) ∧
        s.flagged t .tp .capacity (removed ≠ [] ∨ released ≠ []) ∧
        t.afterRequests
          { s.prj with
            checkMode :=
              if s.prj.defaultApplied then s.prj.checkMode else if image.field 157 = 1 then .notify else .hold
            defaultApplied := true }
          ((if bounds then 1 else 0) + removed.length + released.length + (if enters then 1 else 0))) ∧
      t.du = { s.du with setpoint := t.du.setpoint } ∧
      (∀ x : Train, (c.trains.get x).installed = true → (s.train x).state = .running →
        t.du.setpoint.get x = max (c.trains.get x).minStable (min (c.trains.get x).maxKw (s.du.setpoint.get x))) ∧
      (∀ x : Train, (c.trains.get x).installed = true → (s.train x).state ≠ .running →
        t.du.setpoint.get x = s.du.setpoint.get x) ∧
      (∀ x : Train, (enters → s.prof.working.field (trainField x + 9) = 0 → (t.train x).sensitivity = .edge) ∧
        (enters → s.prof.working.field (trainField x + 9) = 1 → (t.train x).sensitivity = .edgeAndLevel) ∧
        (¬ enters → (t.train x).sensitivity = (s.train x).sensitivity)) ∧
      t.rsv =
        { s.rsv with
          granted := t.rsv.granted
          linkTimer := if s.settings = none ∧ s.rsv.link = .linked then some (s.now + c.linkTimeout) else s.rsv.linkTimer }

/-- A check that fails sets profile-bad, records its failing field and raises PROFILE; the values in force stay as they were (R160). A
POWER-UP check in CHECKING leads to MAINTENANCE; a PLAIN check in SERVICE leads to FAULTED: every active train is TRIPPED with reason
COORD, in the order C1 to E3, every permit falls, the target, the setpoints and the granted activation are 0 and the background timer
stops (R161, R171, R110, R111, R122, R132, R140). That a completion with no check in progress changes nothing is the model's (log entry 3,
DEDUCED). -/
def Obligations.FailingCheckFaultsService : Prop :=
  ∀ s : State,
    (∀ (purpose : Purpose) (image : Image) (n : Nat),
      s.prof.activity = .verifying purpose image → failingField image = some n →
      let leaves := purpose = .powerUp ∧ s.prof.mode = .checking
      let faults := purpose = .plain ∧ s.prof.mode = .service
      ∃ t, exec .profileCheckCompletion s = .next t ∧ t.faultLine = true ∧
        t.prof =
          { s.prof with
            bad := true, lastCheck := .fail, failingField := n, activity := .idle
            mode := if leaves then .maintenance else if faults then .faulted else s.prof.mode
            background := if faults then none else s.prof.background } ∧
        (t.port .pp).causes &&& Cause.mask .pp .profile = Cause.mask .pp .profile ∧
        (leaves → s.onlyChanges t [.prof, .pp, .tp, .gp] ∧ s.raisedOnly t .tp .mode ∧ s.raisedOnly t .gp .mode) ∧
        (¬ leaves → ¬ faults → s.onlyChanges t [.prof, .pp]) ∧
        (faults →
          s.onlyChanges t [.prof, .trc, .du, .rsv, .prj, .pp, .tp, .gp] ∧ s.raisedOnly t .gp .mode ∧
          (t.port .tp).causes &&& Cause.mask .tp .mode = Cause.mask .tp .mode ∧
          t.rsv = { s.rsv with granted := 0 } ∧
          t.du.target = 0 ∧ t.du.previous = 0 ∧ t.du.working = 0 ∧ t.du.clamped = 0 ∧
          t.du.headroomUp = 0 ∧ t.du.headroomDown = 0 ∧ t.du.derateReported = false ∧
          (∀ x : Train, t.du.setpoint.get x = 0 ∧ t.permit x = false) ∧ s.TripsActive t .coord)) ∧
    ((∀ purpose image, s.prof.activity ≠ .verifying purpose image) → exec .profileCheckCompletion s = .next s)

/-- Which images a check passes, field by field: an image passes exactly where every field lies in its range of R158 and agrees with the
earlier fields that the range names, and field 158 is the CRC-16 of the others (R158, R159). A check that fails names the first field, in
order of field id, that it does not accept. The merit orders of a passed image name each train of their kind once. The values that an
image gives the blocks are its fields, in their places (R2, R40, R86, R114, R134), with M_floor and M_ceil the inverse table values of
p_min and p_max and the two rate caps rounded down (R25). -/
def Obligations.PassedImagesAgree : Prop :=
  (∀ image : Image,
    let accepts := fun id : Nat =>
      let v := image.field id
      let within := fun first last least most : Nat => first ≤ id → id ≤ last → least ≤ v ∧ v ≤ most
      within 1 1 0 65535 ∧ (id = 2 → v = 5 ∨ v = 15 ∨ v = 30 ∨ v = 60) ∧ within 3 3 1 8 ∧ within 4 4 5 120 ∧
      within 5 5 0 2000000 ∧
      within 6 21 0 4000000000 ∧ (7 ≤ id → id ≤ 21 → image.field (id - 1) < v) ∧
      within 22 37 1 65535 ∧ (23 ≤ id → id ≤ 37 → image.field (id - 1) < v) ∧
      within 38 39 (image.field 22) (image.field 37) ∧ (id = 39 → image.field 38 < v) ∧
      within 40 41 1 200000 ∧ within 42 42 0 10000 ∧ within 43 43 1 2000 ∧ within 44 44 1 255 ∧ within 45 46 1000 20000 ∧
      (∀ tier ∈ [47, 53, 59],
        within tier (tier + 1) 0 2000 ∧ within (tier + 2) (tier + 2) 0 1000 ∧ within (tier + 3) (tier + 3) 1 4000000000 ∧
        (id = tier + 4 → v < image.field (tier + 3)) ∧ within (tier + 5) (tier + 5) 1 1000) ∧
      (∀ train ∈ [65, 76, 87, 98, 109, 120, 131],
        within train train 0 1 ∧ within (train + 1) (train + 1) 1 200000 ∧ (id = train + 2 → v ≤ image.field (train + 1)) ∧
        within (train + 3) (train + 4) 60 7200 ∧ within (train + 5) (train + 6) 30 1800 ∧
        within (train + 7) (train + 7) 60 14400 ∧ within (train + 8) (train + 8) 1 8 ∧ within (train + 9) (train + 9) 0 1 ∧
        within (train + 10) (train + 10) 1 2000) ∧
      within 142 143 1 50000 ∧ within 144 144 0 3600 ∧
      within 145 148 1 4 ∧ (∀ earlier, 145 ≤ earlier → earlier < id → id ≤ 148 → image.field earlier ≠ v) ∧
      within 149 151 1 3 ∧ (∀ earlier, 149 ≤ earlier → earlier < id → id ≤ 151 → image.field earlier ≠ v) ∧
      within 152 152 3 60 ∧ within 153 153 5 300 ∧ within 154 154 2 60 ∧ within 155 155 0 300 ∧ within 156 156 1 255 ∧
      within 157 157 0 1 ∧ within 158 158 0 65535 ∧ (id = 158 → v = (crc16 image).toNat)
    (failingField image = none ↔ ∀ id, 1 ≤ id → id ≤ 158 → accepts id) ∧
    (∀ n, failingField image = some n ↔
      1 ≤ n ∧ n ≤ 158 ∧ ¬ accepts n ∧ ∀ id, 1 ≤ id → id < n → accepts id) ∧
    (failingField image = none →
      (Settings.ofImage image).compressorOrder.Perm [.c1, .c2, .c3, .c4] ∧
      (Settings.ofImage image).turbineOrder.Perm [.e1, .e2, .e3])) ∧
  (∀ image : Image,
    let shift := fun r : Half => if r.msb then (r <<< 1) ^^^ 0x1021#16 else r <<< 1
    crc16 image =
      ((image.toList.take 157).flatMap fun w => u32 w.toNat).foldl
        (fun (r : Half) (b : Byte) => (List.range 8).foldl (fun r _ => shift r) (r ^^^ (b.setWidth 16 <<< 8))) 0xFFFF#16) ∧
  (∀ image : Image,
    let f := image.field
    let c := Settings.ofImage image
    c.intervalLength = f 2 ∧ c.gateClosure = f 3 ∧ c.reserveDuration = f 4 ∧ c.massMargin = f 5 ∧
    c.table.map TablePoint.mass = [6, 7, 8, 9, 10, 11, 12, 13, 14, 15, 16, 17, 18, 19, 20, 21].map f ∧
    c.table.map TablePoint.pressure = [22, 23, 24, 25, 26, 27, 28, 29, 30, 31, 32, 33, 34, 35, 36, 37].map f ∧
    c.massFloor = inverseTable c.table (f 38) ∧ c.massCeil = inverseTable c.table (f 39) ∧
    c.rateCharge = f 40 ∧ c.rateDischarge = f 41 ∧ c.leakage = f 42 ∧ c.driftTolerance = f 43 ∧ c.driftLimit = f 44 ∧
    c.airCharge = f 45 ∧ c.airDischarge = f 46 ∧
    c.dischargeCap = f 41 * 60000 / f 46 ∧ c.chargeCap = f 40 * 60000 / f 45 ∧
    (∀ (k : Tier) (i : Nat), (k = .t1 ∧ i = 47) ∨ (k = .t2 ∧ i = 53) ∨ (k = .t3 ∧ i = 59) →
      c.tiers.get k =
        { qCharge := f i, qDischarge := f (i + 1), lossRate := f (i + 2), capacity := f (i + 3), minHeat := f (i + 4)
          heatRate := f (i + 5) }) ∧
    (∀ (x : Train) (i : Nat),
      (x, i) ∈ [(Train.c1, 65), (.c2, 76), (.c3, 87), (.c4, 98), (.e1, 109), (.e2, 120), (.e3, 131)] →
      c.trains.get x =
        { installed := decide (f i = 1), maxKw := f (i + 1), minStable := f (i + 2), minRun := f (i + 3)
          minDown := f (i + 4), startTimeout := f (i + 5), stopTimeout := f (i + 6), cooldown := f (i + 7)
          startsPerDay := f (i + 8), massRate := f (i + 10) }) ∧
    c.rampUp = f 142 ∧ c.rampDown = f 143 ∧ c.dwell = f 144 ∧
    (failingField image = none → ∀ (place : Nat) (x : Train),
      (c.compressorOrder[place]? = some x → (x, f (145 + place)) ∈ [(Train.c1, 1), (.c2, 2), (.c3, 3), (.c4, 4)]) ∧
      (c.turbineOrder[place]? = some x → (x, f (149 + place)) ∈ [(Train.e1, 1), (.e2, 2), (.e3, 3)])) ∧
    c.staleLimit = f 152 ∧ c.permitHold = f 153 ∧ c.linkTimeout = f 154 ∧ c.activationHold = f 155 ∧
    c.portErrorLimit = f 156)

/-- A fault of the volatile memory changes one working field and nothing else: no cause is raised and profile-bad stays as it was (R157).
The background timer, each time it runs out in SERVICE, is loaded again with 3,600 s and starts a PLAIN check of the working image if no
check or store is in progress (R170). Which of the parts of one tick comes first is the model's choice (log entry 2). -/
def Obligations.BackgroundCheckFollowsAMemoryFault : Prop :=
  (∀ (s : State) (field : Byte) (value : Word), 1 ≤ field.toNat → field.toNat ≤ 158 →
    ∃ t, exec (.profileMemoryFault field value) s = .next t ∧ s.onlyChanges t [.prof] ∧
      t.prof = { s.prof with working := t.prof.working } ∧
      ∀ j, 1 ≤ j → j ≤ 158 → t.prof.working.word j = if j = field.toNat then value else s.prof.working.word j) ∧
  (∀ s u : State, s.takenAt .background u → u.prof.mode = .service →
    ∃ due t, u.prof.background = some due ∧ due ≤ u.now ∧ exec .backgroundCheck s = .next t ∧ u.onlyChanges t [.prof] ∧
      t.prof =
        { u.prof with
          background := some (u.now + 3600)
          activity := match u.prof.activity with
            | .idle => .verifying .plain u.prof.working
            | busy => busy })

/-- ENTER MAINTENANCE is taken in SERVICE with no active train and in FAULTED: the mode changes, MODE is raised on the trade and grid ports,
and leaving SERVICE brings the target, the setpoints and the granted activation to 0 and stops the background timer, while the dwell
goes on. With an active train it is refused with TRAIN_ACTIVE, in CHECKING and MAINTENANCE with WRONG_MODE (R169, R132, R140, R170). -/
def Obligations.MaintenanceIsEnteredAtRest : Prop :=
  ∀ s : State, s.free .pp →
    (s.prof.mode = .service → (∀ x : Train, (s.train x).state.active = false) →
      ∃ t, exec .enterMaintenance s = .next t ∧ s.onlyChanges t [.prof, .du, .rsv, .pp, .tp, .gp] ∧
        t.prof = { s.prof with mode := .maintenance, background := none } ∧
        t.rsv = { s.rsv with granted := 0 } ∧
        t.du =
          { s.du with
            target := 0, previous := 0, working := 0, clamped := 0, headroomUp := 0, headroomDown := 0
            derateReported := false, setpoint := ⟨0, 0, 0, 0, 0, 0, 0⟩ } ∧
        s.raisedOnly t .tp .mode ∧ s.raisedOnly t .gp .mode ∧ s.repliedPlain t .pp 0x1B#8 .ok []) ∧
    (s.prof.mode = .service → (∃ x : Train, (s.train x).state.active = true) →
      s.onlyAnswers .enterMaintenance .pp 0x1B#8 .trainActive []) ∧
    (s.prof.mode = .faulted →
      ∃ t, exec .enterMaintenance s = .next t ∧ s.onlyChanges t [.prof, .pp, .tp, .gp] ∧
        t.prof = { s.prof with mode := .maintenance } ∧
        s.raisedOnly t .tp .mode ∧ s.raisedOnly t .gp .mode ∧ s.repliedPlain t .pp 0x1B#8 .ok []) ∧
    (s.prof.mode = .checking ∨ s.prof.mode = .maintenance →
      s.onlyAnswers .enterMaintenance .pp 0x1B#8 .wrongMode [])

/-! ### The clock and the book -/

/-- CLOCK SET, with settings loaded, the clock UNSET, an interval from 1 to 4,000,000,000 and milliseconds below L × 60,000, sets the clock,
trims the ring to earlier intervals, opens the PARTIAL record and starts a review that was pending (R42, R149, R154, R68). It is
refused, in this order, with WRONG_MODE, CLOCK_LOCKED and BAD_FIELD (R42). -/
def Obligations.ClockSetOpensThePartialRecord : Prop :=
  ∀ (s : State) (interval millis : Word), s.free .tp →
    (s.settings = none → s.onlyAnswers (.clockSet interval millis) .tp 0x20#8 .wrongMode []) ∧
    (∀ c, s.settings = some c →
      let good := 1 ≤ interval.toNat ∧ interval.toNat ≤ 4000000000 ∧ millis.toNat < c.intervalLength * 60000
      (s.tb.clock ≠ none → s.onlyAnswers (.clockSet interval millis) .tp 0x20#8 .clockLocked []) ∧
      (s.tb.clock = none → ¬ good → s.onlyAnswers (.clockSet interval millis) .tp 0x20#8 .badField []) ∧
      (s.tb.clock = none → good →
        let clock : Clock := { interval := interval.toNat, millis := millis.toNat }
        let block := s.book.blocks.find? fun b => b.terms.covers interval.toNat
        let anchored := s.inv.status = .tracking ∨ s.inv.status = .drifted
        ∃ t, exec (.clockSet interval millis) s = .next t ∧ s.onlyChanges t [.tb, .slog, .prj, .tp] ∧
          t.tb = { s.tb with clock := some clock } ∧
          t.slog =
            { ring := s.slog.ring.filter fun r => decide (r.opened.interval < interval.toNat)
              current := some
                { interval := interval.toNat, reference := block.map fun b => b.terms.reference
                  startMass := if anchored then some s.inv.mass else none
                  startEpoch := s.inv.epoch, scheduled := 0, delivered := 0, reserveUp := 0, reserveDown := 0, ticks := 0
                  flags :=
                    { atRisk := (block.map Block.atRisk).getD false
                      derated := false, minLoad := false, stale := decide (s.inv.metering = .stale)
                      gridLost := s.rsv.holdTimer.isSome, clamped := false, discontinuity := false, isPartial := true } } } ∧
          (s.prj.pendingReview = true → s.prj.running = none → anchored →
            t.prj = { s.prj with running := some (.review (t.snapshot clock)), pendingReview := false }) ∧
          (s.prj.pendingReview = false ∨ s.prj.running ≠ none ∨ ¬ anchored → t.prj = s.prj) ∧
          s.repliedPlain t .tp 0x20#8 .ok (u32 interval.toNat ++ u32 millis.toNat)))

/-- CLOCK TRIM moves the milliseconds by the correction, but not back across the start of the interval (R43, R44); a forward trim that
reaches the end of the interval takes the boundary with all the effects that time would give it, among them the closed record and its
RECORD cause (R151), and counts the rest in the new interval. It is refused with CLOCK_UNSET, and with BAD_FIELD outside -2,000 to +2,000
(R43). The order of the blocks at the boundary is the model's (log entry 19). -/
def Obligations.ClockTrimMovesTheMilliseconds : Prop :=
  ∀ (s : State) (correction : Half), s.free .tp →
    let d := correction.toInt
    (s.tb.clock = none → s.onlyAnswers (.clockTrim correction) .tp 0x21#8 .clockUnset []) ∧
    (∀ c, s.tb.clock = some c →
      (d < -2000 ∨ 2000 < d → s.onlyAnswers (.clockTrim correction) .tp 0x21#8 .badField []) ∧
      (-2000 ≤ d → d ≤ 2000 → (d ≤ 0 ∨ (c.millis : Int) + d < s.cfg.intervalLength * 60000) →
        ∃ t, exec (.clockTrim correction) s = .next t ∧ s.onlyChanges t [.tb, .tp] ∧
          t.tb = { s.tb with clock := some { interval := c.interval, millis := ((c.millis : Int) + d).toNat } } ∧
          s.repliedPlain t .tp 0x21#8 .ok
            (s16 (max d (-(c.millis : Int))) ++ u32 c.interval ++ u32 ((c.millis : Int) + d).toNat)) ∧
      (d ≤ 2000 → 0 < d → (s.cfg.intervalLength * 60000 : Int) ≤ c.millis + d →
        ∃ t, exec (.clockTrim correction) s = .next t ∧
          s.TakesBoundary t c ((c.millis : Int) + d - s.cfg.intervalLength * 60000).toNat ∧
          t.tb = { s.tb with clock := t.tb.clock } ∧
          s.replied t .tp 0x21#8 .ok
            (s16 d ++ u32 ((t.tb.clock.map Clock.interval).getD 0) ++ u32 ((t.tb.clock.map Clock.millis).getD 0))))

/-- The pre-checks of SUBMIT, each in its place: the first that fails refuses it with its result and changes nothing else (R54); and the
field test is R46's ranges and R47's agreements. -/
def Obligations.SubmitIsPreChecked : Prop :=
  (∀ (f : BlockFields) (b : Terms), Terms.ofFields f = some b ↔
    (b.reference = f.reference.toNat ∧ b.first = f.first.toNat ∧ b.length = f.length.toNat ∧ b.power = f.power.toNat ∧
      b.reserveUp = f.reserveUp.toNat ∧ b.reserveDown = f.reserveDown.toNat ∧
      1 ≤ b.reference ∧ 1 ≤ b.first ∧ b.first ≤ 4000000000 ∧ 1 ≤ b.length ∧ b.length ≤ 96 ∧
      b.first + b.length - 1 ≤ 4000000000 ∧ b.power ≤ 400000 ∧ b.reserveUp ≤ 400000 ∧ b.reserveDown ≤ 400000 ∧
      ((f.direction = 1#8 ∧ b.direction = .charge ∧ 1 ≤ b.power ∧ b.reserveUp ≤ b.power) ∨
        (f.direction = 2#8 ∧ b.direction = .discharge ∧ 1 ≤ b.power ∧ b.reserveDown ≤ b.power) ∨
        (f.direction = 3#8 ∧ b.direction = .idle ∧ b.power = 0 ∧ b.reserveUp = 0 ∧ b.reserveDown = 0)))) ∧
  (∀ (s : State) (f : BlockFields), s.free .tp →
    let refused := fun r : Result => s.onlyAnswers (.submit f) .tp 0x22#8 r []
    (s.prof.mode ≠ .service → refused .wrongMode) ∧
    (s.prof.mode = .service →
      (s.tb.clock = none → refused .clockUnset) ∧
      (∀ c, s.tb.clock = some c →
        (s.inv.status = .unanchored → refused .notAnchored) ∧
        (s.inv.status ≠ .unanchored → s.inv.metering = .stale → refused .stale) ∧
        (s.inv.status ≠ .unanchored → s.inv.metering = .fresh →
          (Terms.ofFields f = none → refused .badField) ∧
          (∀ b, Terms.ofFields f = some b →
            let overlap := ∃ x ∈ s.book.blocks, x.terms.first ≤ b.first + b.length - 1 ∧
              b.first ≤ x.terms.first + x.terms.length - 1
            let duplicate := (∃ x ∈ s.book.blocks, x.terms.reference = b.reference) ∨
              ∃ x, s.inFlight = some x ∧ x.reference = b.reference
            let full := 64 ≤ s.book.blocks.length
            (b.first < c.interval + s.cfg.gateClosure → refused .gateClosed) ∧
            (c.interval + s.cfg.gateClosure ≤ b.first →
              (c.interval + 191 < b.first + b.length - 1 → refused .horizon) ∧
              (b.first + b.length - 1 ≤ c.interval + 191 →
                (overlap → refused .overlap) ∧
                (¬ overlap → duplicate → refused .duplicateRef) ∧
                (¬ overlap → ¬ duplicate → full → refused .bookFull) ∧
                (¬ overlap → ¬ duplicate → ¬ full → s.inFlight ≠ none → refused .busy))))))))

/-- A SUBMIT that passes every pre-check is handed to the engine: the check starts from a fresh snapshot where no job runs and waits
behind a running review; the book is not touched. In NOTIFY mode it is answered STARTED at once; in HOLD mode its response stays owed
(R55, R67, R69, R80, R81). -/
def Obligations.SubmitIsHandedOver : Prop :=
  ∀ (s : State) (f : BlockFields) (b : Terms) (c : Clock), s.free .tp →
    s.prof.mode = .service → s.tb.clock = some c → s.inv.status ≠ .unanchored → s.inv.metering = .fresh →
    Terms.ofFields f = some b → c.interval + s.cfg.gateClosure ≤ b.first → b.last ≤ c.interval + 191 →
    (∀ x ∈ s.book.blocks, x.terms.overlaps b = false ∧ x.terms.reference ≠ b.reference) →
    s.book.blocks.length < 64 → s.inFlight = none →
    ∃ t, exec (.submit f) s = .next t ∧ s.onlyChanges t [.prj, .tp] ∧ t.inFlight = some b ∧
      t.prj =
        (match s.prj.running with
          | none => { s.prj with running := some (.check b (s.snapshot c)), waiting := none }
          | some _ => { s.prj with waiting := some b }) ∧
      (s.prj.checkMode = .notify → s.repliedPlain t .tp 0x22#8 .started (u16 b.reference)) ∧
      (s.prj.checkMode = .hold → t.port .tp = { s.port .tp with assembler := .waiting, owed := true })

/-- WITHDRAW removes the named block at or beyond the gate, keeps the order of the others, moves the revision on by 1, requests a review and
answers with the block as it stood (R57, R58). It is refused, in this order, with NOT_FOUND, BUSY and GATE_CLOSED (R57).
That the response carries ACTIVE is read from R46 (log entry 14). -/
def Obligations.WithdrawRemovesTheBlock : Prop :=
  ∀ (s : State) (reference : Half), s.free .tp →
    ((∀ x ∈ s.book.blocks, x.terms.reference ≠ reference.toNat) →
      s.onlyAnswers (.withdraw reference) .tp 0x23#8 .notFound []) ∧
    (∀ b ∈ s.book.blocks, b.terms.reference = reference.toNat → s.book.blocks.Pairwise Block.before →
      (s.inFlight ≠ none → s.onlyAnswers (.withdraw reference) .tp 0x23#8 .busy []) ∧
      (s.inFlight = none → b.terms.first < (s.tb.clock.map Clock.interval).getD 0 + s.cfg.gateClosure →
        s.onlyAnswers (.withdraw reference) .tp 0x23#8 .gateClosed []) ∧
      (s.inFlight = none → (s.tb.clock.map Clock.interval).getD 0 + s.cfg.gateClosure ≤ b.terms.first →
        ∃ t, exec (.withdraw reference) s = .next t ∧ s.onlyChanges t [.book, .prj, .tp] ∧
          t.book =
            { blocks := s.book.blocks.filter fun x => decide (x.terms.reference ≠ reference.toNat)
              revision := s.book.revision + 1 } ∧
          s.reviewRequested t ∧
          s.repliedPlain t .tp 0x23#8 .ok
            (u16 b.terms.reference ++ u32 b.terms.first ++ u8 b.terms.length ++ u8 b.terms.direction.code ++
              u32 b.terms.power ++ u32 b.terms.reserveUp ++ u32 b.terms.reserveDown ++ yesNo b.atRisk ++
              yesNo (b.terms.covers ((s.tb.clock.map Clock.interval).getD 0)))))

/-- The interval boundary is taken where the milliseconds reach L × 60,000 before the present device second is over: after the milliseconds
that are wanting, at most 1,000 less those of the second that have passed. It moves the clock to the next interval at 0 milliseconds, or
to UNSET after interval 4,000,000,000; it removes the block that has ended, holds the granted activation within the new band and raises
BAND where the band changed, closes the open record into the ring, opens the next record and requests a review (R39, R45, R60, R139,
R149, R151). Where they are not reached in that second, or the clock is UNSET, nothing changes (log entry 3, DEDUCED). When within its
second the boundary is taken is the model's choice (log entry 2), as is the order of the blocks (log entry 19) and the cut of a ring of
more than 96 records (log entry 23). -/
def Obligations.BoundaryClosesTheInterval : Prop :=
  ∀ s : State,
    let u := s.finishInstant
    (s.settled → u = s) ∧
    (u.tb.clock = none → exec .intervalBoundary s = .next s) ∧
    (∀ c, u.tb.clock = some c →
      let wanting := u.cfg.intervalLength * 60000 - c.millis
      (u.tb.phase + wanting ≤ 1000 →
        ∃ t, exec .intervalBoundary s = .next t ∧
          u.TakesBoundary t c (c.millis - u.cfg.intervalLength * 60000) ∧
          t.tb = { u.tb with phase := u.tb.phase + wanting, clock := t.tb.clock } ∧
          t.port .tp = { u.port .tp with causes := (t.port .tp).causes }) ∧
      (1000 < u.tb.phase + wanting → exec .intervalBoundary s = .next s))

/-- BOOK READ, POSITION and RECORD READ are answered in every mode and change nothing but the port: the block at an ordinal or END; the
position energies, the account and the margin factor; a closed record or NOT_FOUND (R28, R59, R153). A position energy is the smallest
of its terms, the air and then the tiers whose factor is above 0, and the limit named is the first term that equals it (R27). An ordinal
above 63 and an interval outside 1 to 4,000,000,000 are refused with BAD_FIELD. A closed record is sent field by field in the order of R147,
an absent reference as 0 and an absent mass as all ones: that layout is read from R147 and R178 (log entries 15 and 28). -/
def Obligations.ReadingRequestsShowTheTradeState : Prop :=
  ∀ s : State, s.free .tp →
    let now := (s.tb.clock.map Clock.interval).getD 0
    let tail := u8 s.book.blocks.length ++ u16 s.book.revision.toNat ++ u32 now
    let bounds := u8 s.slog.ring.length ++ u32 ((s.slog.ring.head?.map fun r => r.opened.interval).getD 0) ++
      u32 ((s.slog.ring.getLast?.map fun r => r.opened.interval).getD 0) ++
      u32 ((s.slog.current.map OpenRecord.interval).getD 0)
    let account := u8 (match s.inv.status with | .unanchored => 0 | .tracking => 1 | .drifted => 2) ++
      u32 s.inv.mass ++ u32 s.inv.heat.t1 ++ u32 s.inv.heat.t2 ++ u32 s.inv.heat.t3
    (∀ n : Byte, 63 < n.toNat → s.onlyAnswers (.bookRead n) .tp 0x26#8 .badField []) ∧
    (∀ n : Byte, n.toNat ≤ 63 → s.book.blocks[n.toNat]? = none →
      s.onlyAnswers (.bookRead n) .tp 0x26#8 .endOfBook tail) ∧
    (∀ (n : Byte) (b : Block), n.toNat ≤ 63 → s.book.blocks[n.toNat]? = some b →
      s.onlyAnswers (.bookRead n) .tp 0x26#8 .ok
        (u16 b.terms.reference ++ u32 b.terms.first ++ u8 b.terms.length ++ u8 b.terms.direction.code ++
          u32 b.terms.power ++ u32 b.terms.reserveUp ++ u32 b.terms.reserveDown ++ yesNo b.atRisk ++
          yesNo (s.tb.clock.isSome && b.terms.covers now) ++ tail)) ∧
    (s.inv.status = .unanchored →
      s.onlyAnswers .position .tp 0x27#8 .ok (u32 0 ++ u8 0 ++ u32 0 ++ u8 0 ++ account)) ∧
    (∀ g : Nat, (s.inv.status = .tracking ∧ g = 1) ∨ (s.inv.status = .drifted ∧ g = 2) →
      let c := s.cfg
      let m : Int := s.inv.mass
      let tiers := [(Tier.t1, 2), (Tier.t2, 3), (Tier.t3, 4)]
      let out : List (Nat × Nat) :=
        ((m - c.massFloor - (g * c.massMargin : Nat)).toNat * 1000 / c.airDischarge, 1) ::
          (tiers.filter fun k => decide (0 < (c.tiers.get k.1).qDischarge)).map fun k =>
            (s.inv.heat.get k.1 * 1000 / (c.tiers.get k.1).qDischarge * 1000 / c.airDischarge, k.2)
      let room : List (Nat × Nat) :=
        ((c.massCeil - (g * c.massMargin : Nat) - m : Int).toNat * 1000 / c.airCharge, 1) ::
          (tiers.filter fun k => decide (0 < (c.tiers.get k.1).qCharge)).map fun k =>
            (((c.tiers.get k.1).capacity - s.inv.heat.get k.1) * 1000 / (c.tiers.get k.1).qCharge * 1000 / c.airCharge, k.2)
      let least := fun (terms : List (Nat × Nat)) (x : Nat × Nat) =>
        ∃ before after, terms = before ++ x :: after ∧ (∀ y ∈ before, x.1 < y.1) ∧ ∀ y ∈ terms, x.1 ≤ y.1
      ∃ d e, least out d ∧ least room e ∧
        s.onlyAnswers .position .tp 0x27#8 .ok (u32 d.1 ++ u8 d.2 ++ u32 e.1 ++ u8 e.2 ++ account)) ∧
    (∀ i : Word, i.toNat = 0 ∨ 4000000000 < i.toNat → s.onlyAnswers (.recordRead i) .tp 0x28#8 .badField []) ∧
    (∀ i : Word, 1 ≤ i.toNat → i.toNat ≤ 4000000000 → (∀ r ∈ s.slog.ring, r.opened.interval ≠ i.toNat) →
      s.onlyAnswers (.recordRead i) .tp 0x28#8 .notFound bounds) ∧
    (∀ (i : Word) (r : ClosedRecord), 1 ≤ i.toNat → i.toNat ≤ 4000000000 → r ∈ s.slog.ring →
      r.opened.interval = i.toNat → s.slog.ring.Pairwise (fun a b => a.opened.interval < b.opened.interval) →
      let q := r.opened
      let bit := fun (set : Bool) (weight : Nat) => if set then weight else 0
      let flags := bit q.flags.atRisk 1 + bit q.flags.derated 2 + bit q.flags.minLoad 4 + bit q.flags.stale 8 +
        bit q.flags.gridLost 16 + bit q.flags.clamped 32 + bit q.flags.discontinuity 64 + bit q.flags.isPartial 128
      s.onlyAnswers (.recordRead i) .tp 0x28#8 .ok
        (u32 q.interval ++ u16 (q.reference.getD 0) ++ u32 (q.startMass.getD 4294967295) ++ u32 q.startEpoch.toNat ++
          s64 q.scheduled ++ s64 q.delivered ++ s64 q.reserveUp ++ s64 q.reserveDown ++ u16 q.ticks ++ u8 flags ++
          u32 (r.endMass.getD 4294967295) ++ u32 r.endEpoch.toNat ++ s32 r.scheduledKwh ++ s32 r.deliveredKwh ++
          s32 r.reserveUpKwh ++ s32 r.reserveDownKwh ++ bounds))

/-! ### The Projection Engine -/

/-- CHECK MODE sets the check mode and the default applied flag, and is refused with BAD_FIELD for a code that is neither mode and with BUSY
while a check is in flight (R82). ABANDON, in NOTIFY mode with a check in flight, ends it: the book stays, the response carries the
reference and the notice ABANDONED follows it, a waiting check is removed, and a running check gives up the engine to a pending review
where that can start; otherwise it is answered NO_CHECK (R83, R71).
The order of the parts of ABANDON is the model's (log entry 11). -/
def Obligations.CheckModeAndAbandonAreAnswered : Prop :=
  ∀ s : State, s.free .tp →
    (∀ (code : Byte) (m : CheckMode), CheckMode.ofCode code = some m → s.inFlight = none →
      ∃ t, exec (.checkMode code) s = .next t ∧ s.onlyChanges t [.prj, .tp] ∧
        t.prj = { s.prj with checkMode := m, defaultApplied := true } ∧
        s.repliedPlain t .tp 0x25#8 .ok (u8 (if m = .hold then 0 else 1))) ∧
    (∀ code : Byte, 1 < code.toNat → s.onlyAnswers (.checkMode code) .tp 0x25#8 .badField []) ∧
    (∀ code : Byte, code.toNat ≤ 1 → s.inFlight ≠ none → s.onlyAnswers (.checkMode code) .tp 0x25#8 .busy []) ∧
    (s.inFlight = none ∨ s.prj.checkMode = .hold → s.onlyAnswers .abandon .tp 0x24#8 .noCheck []) ∧
    (∀ b, s.inFlight = some b → s.prj.checkMode = .notify →
      (s.prj.waiting = none ∨ ∃ snap, s.prj.running = some (.review snap)) →
      ∃ t, exec .abandon s = .next t ∧ s.onlyChanges t [.prj, .tp] ∧ t.inFlight = none ∧
        ((∃ snap, s.prj.running = some (.review snap)) → t.prj = { s.prj with waiting := none }) ∧
        ((∃ snap, s.prj.running = some (.check b snap)) →
          (∀ c, s.prj.pendingReview = true → s.inv.status ≠ .unanchored → s.tb.clock = some c →
            t.prj = { s.prj with running := some (.review (s.snapshot c)), pendingReview := false }) ∧
          (s.prj.pendingReview = false ∨ s.inv.status = .unanchored ∨ s.tb.clock = none →
            t.prj = { s.prj with running := none })) ∧
        t.port .tp =
          { s.port .tp with
            assembler := .waiting, owed := true, resetSeen := false
            causes := (s.port .tp).causes ||| Cause.mask .tp .checkDone
            output := (s.port .tp).output ++
              [Frame.make 0xA4#8
                ((t.setPort .tp
                  { t.port .tp with resetSeen := (s.port .tp).resetSeen, causes := (s.port .tp).causes }).statusByte .tp ::
                  Result.ok.code :: u16 b.reference),
               Frame.make 0xC0#8
                (t.statusByte .tp :: Result.abandoned.code ::
                  (u16 b.reference ++ u8 0 ++ u8 0 ++ u32 0 ++ u16 s.book.revision.toNat))] })

/-- The end of an admission check: its result by the tests of R72 in their order. ACCEPTED inserts the candidate in its place, sets every
mark from the walk and moves the revision on by 1; any other result leaves the book. AT_RISK is raised on the plant and trade ports
exactly where a block is newly marked (R75). The engine passes to a pending review where that can start, and is idle otherwise (R71). The
end is reported, with the walk's failure for REFUSED and ACCEPTED: by the held response in HOLD mode, with no CHECK_DONE (R80), by
CHECK_DONE and a notice in NOTIFY mode (R51, R72 to R74, R79, R81). That the engine is passed on before the report is built is the model's
(log entry 11). -/
def Obligations.CheckCompletionAdmitsOrEnds : Prop :=
  ∀ (s : State) (b : Terms) (snap : Snapshot), s.prj.running = some (.check b snap) → s.BookSafe →
    let f := snap.walk (some b)
    let margin := match s.inv.status with | .unanchored => 0 | .tracking => 1 | .drifted => 2
    let result : Result :=
      if s.prof.mode ≠ .service then .wrongMode
      else if s.inv.epoch ≠ snap.epoch ∨ s.trc.generation ≠ snap.generation ∨ margin ≠ snap.margin then .changed
      else if s.inv.metering = .stale then .stale
      else match s.tb.clock with
        | none => .gateClosed
        | some c =>
          if b.first < c.interval + s.cfg.gateClosure then .gateClosed
          else match f with
            | none => .accepted
            | some x => if b.first ≤ x.interval ∧ x.interval ≤ b.last then .refused else .accepted
    let shown := if result = .accepted ∨ result = .refused then f else none
    let newly := result = .accepted ∧ ∃ y, f = some y ∧
      (y.interval ≤ b.last ∨ ∃ x ∈ s.book.blocks, x.atRisk = false ∧ y.interval ≤ x.terms.last)
    let report := fun status : Byte => status :: result.code ::
      (u16 b.reference ++ u8 ((shown.map fun x => x.reason.code).getD 0) ++ u8 ((shown.map Failure.tier).getD 0) ++
        u32 ((shown.map Failure.interval).getD 0))
    ∃ t, exec .checkCompletion s = .next t ∧ s.onlyChanges t [.book, .prj, .pp, .tp] ∧ t.inFlight = none ∧
      (result ≠ .accepted → t.book = s.book) ∧
      (result = .accepted →
        (t.book.blocks.map Block.terms).Perm (b :: s.book.blocks.map Block.terms) ∧
        t.book.blocks.Pairwise (fun x y => x.terms.last < y.terms.first) ∧
        (∀ x ∈ t.book.blocks, x.atRisk = true ↔ ∃ y, f = some y ∧ y.interval ≤ x.terms.last) ∧
        t.book.revision = s.book.revision + 1) ∧
      (newly → s.raisedOnly t .pp .atRisk) ∧ (¬ newly → t.port .pp = s.port .pp) ∧
      (∀ c, s.prj.pendingReview = true → s.inv.status ≠ .unanchored → s.tb.clock = some c →
        t.prj = { s.prj with running := some (.review (t.snapshot c)), waiting := none, pendingReview := false }) ∧
      (s.prj.pendingReview = false ∨ s.inv.status = .unanchored ∨ s.tb.clock = none →
        t.prj = { s.prj with running := none, waiting := none }) ∧
      (∀ risk, (newly → risk = Cause.mask .tp .atRisk) → (¬ newly → risk = 0#8) →
        (s.prj.checkMode = .hold →
          t.port .tp =
            { s.port .tp with
              causes := (s.port .tp).causes ||| risk, resetSeen := false
              output := (s.port .tp).output ++
                [Frame.make 0xA2#8 (report (s.shownStatus t .tp) ++ u16 t.book.revision.toNat)] }) ∧
        (s.prj.checkMode = .notify →
          t.port .tp =
            { s.port .tp with
              causes := (s.port .tp).causes ||| risk ||| Cause.mask .tp .checkDone
              output := (s.port .tp).output ++
                [Frame.make 0xC0#8 (report (t.statusByte .tp) ++ u16 t.book.revision.toNat)] }))

/-- The end of a review: every mark is set from its walk, the revision moves on by 1 where a mark changed, AT_RISK is raised on the plant
and trade ports exactly where a block is newly marked, and the engine passes to a pending review, else to the waiting check, else to idle
(R71, R74 to R76); a check that then finds the clock UNSET ends at once and is reported, by the held response in HOLD mode and by
CHECK_DONE and a notice in NOTIFY mode (R68, R80, R81). That a completion with no job of its kind running changes nothing is the model's
(log entry 3, DEDUCED). -/
def Obligations.ReviewCompletionMarksTheBook : Prop :=
  ∀ s : State,
    ((∀ snap, s.prj.running ≠ some (.review snap)) → exec .reviewCompletion s = .next s) ∧
    ((∀ b snap, s.prj.running ≠ some (.check b snap)) → exec .checkCompletion s = .next s) ∧
    (∀ snap, s.prj.running = some (.review snap) →
      let marked := s.book.blocks.map fun b =>
        { b with atRisk := match snap.walk none with
          | none => false
          | some x => decide (x.interval ≤ b.terms.last) }
      let newly := ∃ b ∈ s.book.blocks, b.atRisk = false ∧ ∃ x, snap.walk none = some x ∧ x.interval ≤ b.terms.last
      let startsReview := s.prj.pendingReview = true ∧ s.inv.status ≠ .unanchored ∧ s.tb.clock ≠ none
      ∃ t, exec .reviewCompletion s = .next t ∧ s.onlyChanges t [.book, .prj, .pp, .tp] ∧
        t.book =
          { blocks := marked
            revision := if marked = s.book.blocks then s.book.revision else s.book.revision + 1 } ∧
        (newly → s.raisedOnly t .pp .atRisk) ∧ (¬ newly → t.port .pp = s.port .pp) ∧
        s.flagged t .tp .atRisk newly ∧
        (startsReview ∨ s.prj.waiting = none ∨ s.tb.clock ≠ none →
          (newly → s.raisedOnly t .tp .atRisk) ∧ (¬ newly → t.port .tp = s.port .tp)) ∧
        (∀ c, startsReview → s.tb.clock = some c →
          t.prj = { s.prj with running := some (.review (t.snapshot c)), pendingReview := false }) ∧
        (¬ startsReview → s.prj.waiting = none → t.prj = { s.prj with running := none }) ∧
        (∀ b c, ¬ startsReview → s.prj.waiting = some b → s.tb.clock = some c →
          t.prj = { s.prj with running := some (.check b (t.snapshot c)), waiting := none }) ∧
        (∀ b, ¬ startsReview → s.prj.waiting = some b → s.tb.clock = none →
          t.prj = { s.prj with running := none, waiting := none } ∧
          (∀ risk, (newly → risk = Cause.mask .tp .atRisk) → (¬ newly → risk = 0#8) →
            let report := fun status : Byte =>
              status :: (if s.prof.mode = .service then Result.gateClosed else Result.wrongMode).code ::
                (u16 b.reference ++ u8 0 ++ u8 0 ++ u32 0 ++ u16 t.book.revision.toNat)
            (s.prj.checkMode = .hold →
              t.port .tp =
                { s.port .tp with
                  causes := (s.port .tp).causes ||| risk, resetSeen := false
                  output := (s.port .tp).output ++ [Frame.make 0xA2#8 (report (s.shownStatus t .tp))] }) ∧
            (s.prj.checkMode = .notify →
              t.port .tp =
                { s.port .tp with
                  causes := (s.port .tp).causes ||| risk ||| Cause.mask .tp .checkDone
                  output := (s.port .tp).output ++ [Frame.make 0xC0#8 (report (t.statusByte .tp))] }))))

/-- One interval of a walk, by the exact quotients (spec/02, R29 to R32): its duration, the air moved and the flow, the losses on what the
flow left, rounded against the store, and the reserve needs. -/
def Obligations.ProjectionIntervalFollowsItsRules : Prop :=
  (∀ length millis : Nat, millis < length * 60000 →
    (remainingMinutes length millis : Int) = ⌈((length * 60000 - millis : Rat) / 60000)⌉ ∧
      1 ≤ remainingMinutes length millis ∧ remainingMinutes length millis ≤ length) ∧
  (∀ (c : Settings) (b : Terms) (t : Nat) (p : Projected),
    let dm : Int :=
      match b.direction with
      | .charge => ⌊((b.power * t * c.airCharge : Rat) / 60000)⌋
      | .discharge => ⌈((b.power * t * c.airDischarge : Rat) / 60000)⌉
      | .idle => 0
    let flowed : Tier → Int := fun k =>
      match b.direction with
      | .charge => p.heat.get k + ⌊((dm * (c.tiers.get k).qCharge : Rat) / 1000)⌋
      | .discharge => p.heat.get k - ⌈((dm * (c.tiers.get k).qDischarge : Rat) / 1000)⌉
      | .idle => p.heat.get k
    airMoved c b t = dm ∧
    (walkInterval c b t p).mass =
      (match b.direction with
        | .charge => p.mass + dm
        | .discharge => p.mass - dm
        | .idle => p.mass) - c.leakage * t ∧
    (∀ k : Tier, (walkInterval c b t p).heat.get k =
      if 0 < flowed k then flowed k - ⌈((flowed k * (c.tiers.get k).lossRate * t : Rat) / 1000000)⌉ else flowed k) ∧
    needUp c b = ⌈((b.reserveUp * c.reserveDuration * c.airDischarge : Rat) / 60000)⌉ ∧
    needDown c b = ⌈((b.reserveDown * c.reserveDuration * c.airCharge : Rat) / 60000)⌉ ∧
    ∀ k : Tier, heatNeed c b k = ⌈((needUp c b * (c.tiers.get k).qDischarge : Rat) / 1000)⌉)

/-- The snapshot of a job shows the state as it stands at its start, without the marks (R67). A walk over the horizon of 192 intervals
from the current one (R29, R33, R34, R66). `p i` are the projected values before the i-th interval: they start from the snapshot's account
and pass through each interval in turn, the first lasting the minutes that remain of it and every later one L, each walked with the block
of the book or the candidate that covers it, and as IDLE where none does. The walk fails at the first interval in which one of the six
checks fails, with the reason and the tier number of the first check that fails there in the order FLOOR, CEILING, HEAT_SHORT and
HEAT_FULL over T1 to T3, POWER, RATE; and it has no failure where every check of every interval passes. E_avail and C_avail are the max kW
of the installed trains that are STOPPED, STARTING, RUNNING or STOPPING. -/
def Obligations.WalkReportsTheFirstFailure : Prop :=
  (∀ (s : State) (clock : Clock),
    s.snapshot clock =
      { mass := s.inv.mass, heat := s.inv.heat, status := s.inv.status
        margin := match s.inv.status with | .unanchored => 0 | .tracking => 1 | .drifted => 2
        epoch := s.inv.epoch, generation := s.trc.generation
        trains :=
          ⟨(s.train .c1).state, (s.train .c2).state, (s.train .c3).state, (s.train .c4).state, (s.train .e1).state,
            (s.train .e2).state, (s.train .e3).state⟩
        clock := clock, book := s.book.blocks.map Block.terms, settings := s.cfg }) ∧
  (∀ (snap : Snapshot) (candidate : Option Terms) (cover : Nat → Terms) (p : Nat → Projected),
    let c := snap.settings
    let blocks := snap.book ++ candidate.toList
    let start := snap.clock.interval
    let minutes := fun i => if i = 0 then remainingMinutes c.intervalLength snap.clock.millis else c.intervalLength
    let kw := fun x : Train =>
      if (c.trains.get x).installed = true ∧ ((snap.trains.get x) = .stopped ∨ (snap.trains.get x) = .starting ∨
        (snap.trains.get x) = .running ∨ (snap.trains.get x) = .stopping) then (c.trains.get x).maxKw else 0
    let turbines := kw .e1 + kw .e2 + kw .e3
    let compressors := kw .c1 + kw .c2 + kw .c3 + kw .c4
    (∀ j, ∀ b ∈ blocks, b.first ≤ j → j ≤ b.last → cover j = b) →
    (∀ j, (∀ b ∈ blocks, ¬ (b.first ≤ j ∧ j ≤ b.last)) → cover j = Terms.uncovered) →
    p 0 = { mass := snap.mass, heat := ⟨snap.heat.t1, snap.heat.t2, snap.heat.t3⟩ } →
    (∀ i, p (i + 1) = walkInterval c (cover (start + i)) (minutes i) (p i)) →
    let checks : Nat → List (Prop × CheckReason × Nat) := fun i =>
      let b := cover (start + i)
      let after := p (i + 1)
      let dm := airMoved c b (minutes i)
      [((c.massFloor : Int) + snap.margin * c.massMargin + needUp c b ≤ after.mass, .floor, 0),
        (after.mass ≤ (c.massCeil : Int) - snap.margin * c.massMargin - needDown c b, .ceiling, 0),
        (heatNeed c b .t1 ≤ after.heat.t1, .heatShort, 1),
        (heatNeed c b .t2 ≤ after.heat.t2, .heatShort, 2),
        (heatNeed c b .t3 ≤ after.heat.t3, .heatShort, 3),
        (after.heat.t1 ≤ c.tiers.t1.capacity, .heatFull, 1),
        (after.heat.t2 ≤ c.tiers.t2.capacity, .heatFull, 2),
        (after.heat.t3 ≤ c.tiers.t3.capacity, .heatFull, 3),
        ((b.direction = .discharge → b.power + b.reserveUp ≤ turbines) ∧
          (b.direction = .charge → b.power + b.reserveDown ≤ compressors), .power, 0),
        ((b.direction = .charge → dm ≤ c.rateCharge * minutes i) ∧
          (b.direction = .discharge → dm ≤ c.rateDischarge * minutes i), .rate, 0)]
    ((∀ i, i < 192 → ∀ x ∈ checks i, x.1) → snap.walk candidate = none) ∧
    (∀ i before x after, i < 192 → (∀ h, h < i → ∀ y ∈ checks h, y.1) → checks i = before ++ x :: after →
      (∀ y ∈ before, y.1) → ¬ x.1 → snap.walk candidate = some { interval := start + i, reason := x.2.1, tier := x.2.2 }))

/-! ### Reserve activation -/

/-- ACTIVATE in SERVICE grants the request held within the band of the current block; outside SERVICE it is refused with WRONG_MODE. POLL
reports the link as it was before the frame, the loss count, the grant, the band, the headroom, the target and the metered output, and
changes nothing but the link. Each frame first restores the link (R135 to R138, R141, R144, R145).
The code of the link state is read from R178 (log entry 28). -/
def Obligations.ActivateAndPollAreAnswered : Prop :=
  ∀ s : State, s.free .gp →
    let block := s.book.blocks.find? fun b => match s.tb.clock with
      | none => false
      | some c => decide (b.terms.first ≤ c.interval) && decide (c.interval ≤ b.terms.last)
    let down := (block.map fun b => b.terms.reserveDown).getD 0
    let up := (block.map fun b => b.terms.reserveUp).getD 0
    let shown := u32 down ++ u32 up ++ u16 ((block.map fun b => b.terms.reference).getD 0) ++
      s32 s.du.headroomUp ++ s32 s.du.headroomDown
    let now := u32 ((s.tb.clock.map Clock.interval).getD 0)
    (∀ a : Word, s.prof.mode = .service →
      let granted := max (-(down : Int)) (min (up : Int) a.toInt)
      ∃ t, exec (.activate a) s = .next t ∧ s.onlyChanges t [.rsv, .gp] ∧
        t.rsv = { s.linkAfterFrame with granted := granted } ∧
        s.repliedPlain t .gp 0x30#8 .ok (s32 a.toInt ++ s32 granted ++ shown ++ now)) ∧
    (∀ a : Word, s.prof.mode ≠ .service → s.onlyAnswers (.activate a) .gp 0x30#8 .wrongMode []) ∧
    s.onlyAnswers .poll .gp 0x31#8 .ok
      (u8 (if s.rsv.link = .linked then 1 else 2) ++ u16 s.rsv.lossCount.toNat ++ s32 s.rsv.granted ++ shown ++
        s32 s.du.target ++ s32 s.du.metered ++ now)

/-- When the link timer runs out the link is LOST, the timer stops, the loss count moves on by 1, GRID_LOST is raised on the plant and trade
ports, an open record is marked, and the hold starts from the loss with the activation hold in force; a hold of 0 sets the granted
activation to 0 at once (R142). When the hold runs out it stops and the granted activation is 0, and no cause is raised (R143).
Which of the parts of one tick comes first is the model's choice (log entry 2). -/
def Obligations.LinkLossHoldsTheGrant : Prop :=
  ∀ s u : State,
    (s.takenAt .linkLoss u →
      ∃ due t, u.rsv.linkTimer = some due ∧ due ≤ u.now ∧ exec .gridLinkLoss s = .next t ∧
        u.onlyChanges t [.rsv, .slog, .pp, .tp] ∧
        t.rsv =
          { link := .lost, linkTimer := none, lossCount := u.rsv.lossCount + 1
            holdTimer := if u.cfg.activationHold = 0 then none else some (u.now + u.cfg.activationHold)
            granted := if u.cfg.activationHold = 0 then 0 else u.rsv.granted } ∧
        t.slog = { u.slog with
          current := u.slog.current.map fun r => { r with flags := { r.flags with gridLost := true } } } ∧
        u.raisedOnly t .pp .gridLost ∧ u.raisedOnly t .tp .gridLost) ∧
    (s.takenAt .activationHold u →
      ∃ due t, u.rsv.holdTimer = some due ∧ due ≤ u.now ∧ exec .activationHoldExpiry s = .next t ∧ u.onlyChanges t [.rsv] ∧
        t.rsv = { u.rsv with holdTimer := none, granted := 0 })

/-! ### Dispatch -/

/-- A dispatch tick is taken at the instant `m`: the tick that an event has opened already, or else the end of the present second (R38; log
entry 2, DESIGN CHOICE). An open record gains one second of its four quantities, the scheduled one being +P, -P or 0 of the block that
covers the current interval, by its direction, and 0 where none does (R117, R150); a dwell that has run out ends. Outside SERVICE the
targets, the headrooms and the setpoints are 0, which they are already in every state that a run reaches (log entry 21); in SERVICE while
metering is STALE they are held; in both cases nothing is marked DERATED or MIN_LOAD. These leave `n`, and a boundary at the same instant
follows them (R116, R122, R131, R132, R150, R152). The dwell also ends by its own event (R122). -/
def Obligations.DispatchTickTakesASecond : Prop :=
  (∀ s : State,
    let m := s.tickInstant
    let current := m.tb.clock.bind fun c => m.book.blocks.find? fun b =>
      decide (b.terms.first ≤ c.interval) && decide (c.interval ≤ b.terms.last)
    let base : Int := match current with
      | none => 0
      | some b => match b.terms.direction with
        | .discharge => b.terms.power
        | .charge => -b.terms.power
        | .idle => 0
    (s.tb.tickOpen = true → m = s.withTb { s.tb with tickOpen := false }) ∧ (s.tb.tickOpen = false → m = s.endSecond) ∧
    ∃ n t : State, exec .dispatchTick s = .next t ∧ n.ClosesTick t ∧ m.onlyChanges n [.trc, .du, .slog, .gp] ∧
      n.slog.ring = m.slog.ring ∧ (m.slog.current = none → n.slog.current = none) ∧
      (∀ r, m.slog.current = some r → ∃ flags : RecordFlags,
        n.slog.current = some
          { r with
            scheduled := r.scheduled + base
            delivered := r.delivered + m.du.metered
            reserveUp := r.reserveUp + (if 0 < m.rsv.granted then m.rsv.granted else 0)
            reserveDown := r.reserveDown + (if m.rsv.granted < 0 then -m.rsv.granted else 0)
            ticks := r.ticks + 1
            flags := flags } ∧
        (flags.atRisk = true ↔ r.flags.atRisk = true ∨ ∃ b, current = some b ∧ b.atRisk = true) ∧
        (flags.stale = true ↔ r.flags.stale = true ∨ m.inv.metering = .stale) ∧
        flags.gridLost = r.flags.gridLost ∧ flags.clamped = r.flags.clamped ∧
        flags.discontinuity = r.flags.discontinuity ∧ flags.isPartial = r.flags.isPartial ∧
        (m.prof.mode ≠ .service ∨ m.inv.metering = .stale →
          flags.derated = r.flags.derated ∧ flags.minLoad = r.flags.minLoad)) ∧
      (m.prof.mode ≠ .service →
        n.trc = m.trc ∧ n.port .gp = m.port .gp ∧
        n.du =
          { m.rested with
            target := 0, previous := 0, working := 0, clamped := 0, headroomUp := 0, headroomDown := 0
            setpoint := ⟨0, 0, 0, 0, 0, 0, 0⟩ }) ∧
      (m.prof.mode = .service → m.inv.metering = .stale →
        n.trc = m.trc ∧ n.port .gp = m.port .gp ∧ n.du = m.rested)) ∧
  (∀ s u : State, s.takenAt .dwell u →
    ∃ due t, u.du.dwell = some due ∧ due ≤ u.now ∧ exec .dwellExpiry s = .next t ∧ u.onlyChanges t [.du] ∧
      t.du = { u.du with dwell := none, dwellKind := none })

/-- A computing tick, in SERVICE with metering FRESH at the instant `m` of the tick: the requested target is held by the capability, the
inventory and the rate clamps in that order (R117 to R120), from the base of the current block by its direction (R117); the working target
is 0 exactly where the changeover or the dwell asks for it and the clamped target otherwise (R121); the dispatched target is the working
one within the ramp and then within the running capacity of its own sign, the sum of max kW of the RUNNING trains of that kind once the
tick has worked the allocation (R126). A tick whose clamps change the requested target marks the open record DERATED, and raises DERATED
once for each spell with an activation; the deliverable headroom is formed (R120). `AllocationStartsAndStopsTrains` says which trains are
started and stopped, and `SetpointsShareTheTarget` how the target is shared. -/
def Obligations.ComputingTickFormsTheTarget : Prop :=
  ∀ s : State,
    let m := s.tickInstant
    m.prof.mode = .service → m.inv.metering = .fresh →
    let current := m.tb.clock.bind fun c => m.book.blocks.find? fun b =>
      decide (b.terms.first ≤ c.interval) && decide (c.interval ≤ b.terms.last)
    let base : Int := match current with
      | none => 0
      | some b => match b.terms.direction with
        | .discharge => b.terms.power
        | .charge => -b.terms.power
        | .idle => 0
    let requested := base + m.rsv.granted
    let capability := fun k : Kind =>
      ((k.trains.filter fun x => (m.trainCfg x).installed &&
          (decide ((m.train x).state = .running) || decide ((m.train x).state = .starting) ||
            (decide ((m.train x).state = .stopped) && (m.train x).minDown.expired &&
              decide ((m.train x).history.length < (m.trainCfg x).startsPerDay)))).map
        fun x => (m.trainCfg x).maxKw).sum
    let d1 := max (-(capability .compressor : Int)) (min (capability .turbine : Int) requested)
    let blocksDischarge := m.inv.status = .unanchored ∨ m.inv.mass ≤ m.cfg.massFloor ∨
      ∃ k ∈ Tier.all, 0 < (m.cfg.tiers.get k).qDischarge ∧ m.inv.heat.get k ≤ (m.cfg.tiers.get k).minHeat
    let blocksCharge := m.inv.status = .unanchored ∨ m.cfg.massCeil ≤ m.inv.mass ∨
      ∃ k ∈ Tier.all, 0 < (m.cfg.tiers.get k).qCharge ∧ (m.cfg.tiers.get k).capacity ≤ m.inv.heat.get k
    let d2 := if (0 < d1 ∧ blocksDischarge) ∨ (d1 < 0 ∧ blocksCharge) then 0 else d1
    let d3 := max (-(m.cfg.chargeCap : Int)) (min (m.cfg.dischargeCap : Int) d2)
    let kind := if 0 < d3 then Kind.turbine else Kind.compressor
    let changes := (0 < d3 ∧ m.du.previous < 0) ∨ (d3 < 0 ∧ 0 < m.du.previous)
    let waits := d3 ≠ 0 ∧ ∃ x : Train, x.kind ≠ kind ∧ (m.train x).state.active = true
    let dwells := d3 ≠ 0 ∧ m.rested.dwell ≠ none ∧ m.rested.dwellKind ≠ some kind
    ∃ n t : State, exec .dispatchTick s = .next t ∧ n.ClosesTick t ∧
      let running := fun k : Kind =>
        ((k.trains.filter fun x => decide ((n.train x).state = .running)).map fun x => (m.trainCfg x).maxKw).sum
      n.du.clamped = d3 ∧
      (changes ∨ waits ∨ dwells → n.du.working = 0) ∧ (¬ changes → ¬ waits → ¬ dwells → n.du.working = d3) ∧
      (∀ ramped, ramped = max (m.du.previous - m.cfg.rampDown) (min (m.du.previous + m.cfg.rampUp) n.du.working) →
        n.du.target =
          if 0 < ramped then min ramped (running .turbine : Int)
          else max ramped (-(running .compressor : Int))) ∧
      n.du.previous = n.du.target ∧ n.du.dwell = m.rested.dwell ∧ n.du.dwellKind = m.rested.dwellKind ∧
      (blocksDischarge → n.du.headroomUp = -d3) ∧
      (¬ blocksDischarge → n.du.headroomUp = min (capability .turbine) m.cfg.dischargeCap - d3) ∧
      (blocksCharge → n.du.headroomDown = d3) ∧
      (¬ blocksCharge → n.du.headroomDown = d3 + min (capability .compressor) m.cfg.chargeCap) ∧
      (∀ r, m.slog.current = some r → ∃ q, n.slog.current = some q ∧
        (q.flags.derated = true ↔ r.flags.derated = true ∨ d3 ≠ requested)) ∧
      (n.du.derateReported = true ↔ m.rsv.granted ≠ 0 ∧ d3 ≠ requested) ∧
      n.port .gp =
        { m.port .gp with
          causes := if m.rsv.granted ≠ 0 ∧ d3 ≠ requested ∧ m.du.derateReported = false then
            (m.port .gp).causes ||| Cause.mask .gp .derated
          else (m.port .gp).causes }

/-- The allocation of a computing tick, for each kind (R123 to R125, R94, R95). `count` is the required count: the least number of entries
from the front of the allocation list whose max kW reach the demand, or the whole list. Where it exceeds the RUNNING trains, no train of
the kind is STARTING and some train is startable, the first startable train in merit order is started; where it is below them, the last
RUNNING train in merit order is stopped if its min-run has expired and the others carry the demand; every other train is unchanged. The
working target that the demand comes from is `ComputingTickFormsTheTarget`'s; the compressors are worked first (log entry 22). -/
def Obligations.AllocationStartsAndStopsTrains : Prop :=
  ∀ s : State, s.SettingsSafe →
    let m := s.tickInstant
    m.prof.mode = .service → m.inv.metering = .fresh →
    ∃ n t : State, exec .dispatchTick s = .next t ∧ n.ClosesTick t ∧ ∀ k : Kind,
      let order := match k with | .compressor => m.cfg.compressorOrder | .turbine => m.cfg.turbineOrder
      let installed := order.filter fun x => (m.trainCfg x).installed
      let running := installed.filter fun x => decide ((m.train x).state = .running)
      let starting := installed.filter fun x => decide ((m.train x).state = .starting)
      let startable := installed.filter fun x => decide ((m.train x).state = .stopped) && (m.train x).minDown.expired &&
        decide ((m.train x).history.length < (m.trainCfg x).startsPerDay)
      let noneStarting := ∀ y : Train, y.kind = k → (m.train y).state ≠ .starting
      let list := running ++ starting ++ startable
      let kw := fun l : List Train => (l.map fun x => (m.trainCfg x).maxKw).sum
      let demand := match k with | .turbine => n.du.working.toNat | .compressor => (-n.du.working).toNat
      ∀ count, count ≤ list.length → (demand ≤ kw (list.take count) ∨ count = list.length) →
        (∀ j, j < count → kw (list.take j) < demand) →
        (∀ x rest, running.length < count → noneStarting → startable = x :: rest →
          n.train x =
            { m.train x with
              state := .starting, history := (m.train x).history ++ [m.now]
              start := { expiry := some (m.now + (m.trainCfg x).startTimeout), expired := false }
              minDown := .stopped, minRun := .stopped, stop := .stopped, cooldown := .stopped } ∧
          ∀ y : Train, y.kind = k → y ≠ x → n.train y = m.train y) ∧
        (∀ x, count < running.length → running.getLast? = some x → (m.train x).minRun.expired = true →
          demand ≤ kw running.dropLast →
          n.train x =
            { m.train x with
              state := .stopping, stop := { expiry := some (m.now + (m.trainCfg x).stopTimeout), expired := false }
              minDown := .stopped, minRun := .stopped, start := .stopped, cooldown := .stopped } ∧
          ∀ y : Train, y.kind = k → y ≠ x → n.train y = m.train y) ∧
        (¬ (running.length < count ∧ noneStarting ∧ startable ≠ []) →
          ¬ (count < running.length ∧ ∃ x, running.getLast? = some x ∧ (m.train x).minRun.expired = true ∧
            demand ≤ kw running.dropLast) →
          ∀ y : Train, y.kind = k → n.train y = m.train y)

/-- The setpoints of a computing tick (R127). The RUNNING trains of the target's kind, in merit order, share |D|: each takes the quotient
by their number, the first ones 1 kW more up to the remainder, held within min stable and max. Every other RUNNING train receives its min
stable, and a train that is not RUNNING 0. Where some share was raised to min stable and the setpoints of the RUNNING trains exceed |D|,
an open record is marked MIN_LOAD; otherwise that mark stays as it was. -/
def Obligations.SetpointsShareTheTarget : Prop :=
  ∀ s : State, s.SettingsSafe → s.settings ≠ none →
    let m := s.tickInstant
    m.prof.mode = .service → m.inv.metering = .fresh →
    ∃ n t : State, exec .dispatchTick s = .next t ∧ n.ClosesTick t ∧
      let d := n.du.target
      let order := if 0 < d then m.cfg.turbineOrder else m.cfg.compressorOrder
      let sharers := if d = 0 then [] else order.filter fun x => decide ((n.train x).state = .running)
      let share := fun i => d.natAbs / sharers.length + (if i < d.natAbs % sharers.length then 1 else 0)
      let sum := ((Train.all.filter fun x => decide ((n.train x).state = .running)).map fun x => n.du.setpoint.get x).sum
      let raised := ∃ i x, sharers[i]? = some x ∧ share i < (m.trainCfg x).minStable
      (∀ x : Train, x ∈ sharers ↔
        (n.train x).state = .running ∧ ((0 < d ∧ x.kind = .turbine) ∨ (d < 0 ∧ x.kind = .compressor))) ∧
      (∀ i x, sharers[i]? = some x →
        n.du.setpoint.get x = max (m.trainCfg x).minStable (min (m.trainCfg x).maxKw (share i))) ∧
      (∀ x : Train, x ∉ sharers → (n.train x).state = .running → n.du.setpoint.get x = (m.trainCfg x).minStable) ∧
      (∀ x : Train, (n.train x).state = .running →
        (m.trainCfg x).minStable ≤ n.du.setpoint.get x ∧ n.du.setpoint.get x ≤ (m.trainCfg x).maxKw) ∧
      (∀ x : Train, (n.train x).state ≠ .running → n.du.setpoint.get x = 0) ∧
      (∀ r, m.slog.current = some r → ∃ q, n.slog.current = some q ∧
        (q.flags.minLoad = true ↔ r.flags.minLoad = true ∨ (raised ∧ d.natAbs < sum)))

/-! ### The arithmetic -/

/-- The forward table value of a mass and the inverse table value of a pressure, over the table of an image that a check passed: clamped at
both ends, and otherwise interpolated in the smallest segment that holds the value, rounded down; every value within the ends lies in
some segment (R23, R24). -/
def Obligations.TableValuesAreInterpolated : Prop :=
  ∀ image : Image, failingField image = none →
    let table := (Settings.ofImage image).table
    let m := fun i => image.field (6 + i)
    let p := fun i => image.field (22 + i)
    (∀ mass : Nat,
      (mass < m 0 → forwardTable table mass = p 0) ∧
      (m 15 < mass → forwardTable table mass = p 15) ∧
      (∀ i, i ≤ 14 → m i ≤ mass → mass ≤ m (i + 1) → (∀ j, j < i → ¬ (m j ≤ mass ∧ mass ≤ m (j + 1))) →
        forwardTable table mass = p i + (mass - m i) * (p (i + 1) - p i) / (m (i + 1) - m i)) ∧
      (m 0 ≤ mass → mass ≤ m 15 → ∃ i, i ≤ 14 ∧ m i ≤ mass ∧ mass ≤ m (i + 1))) ∧
    (∀ pressure : Nat,
      (pressure < p 0 → inverseTable table pressure = m 0) ∧
      (p 15 < pressure → inverseTable table pressure = m 15) ∧
      (∀ i, i ≤ 14 → p i ≤ pressure → pressure ≤ p (i + 1) →
        (∀ j, j < i → ¬ (p j ≤ pressure ∧ pressure ≤ p (j + 1))) →
        inverseTable table pressure = m i + (pressure - p i) * (m (i + 1) - m i) / (p (i + 1) - p i)) ∧
      (p 0 ≤ pressure → pressure ≤ p 15 → ∃ i, i ≤ 14 ∧ p i ≤ pressure ∧ pressure ≤ p (i + 1)))

/-! ### Invariants -/

/-- Each invariant below holds of the machine right after reset; the images and line levels that State.reset holds are the model's (log
entry 1). -/
def Obligations.InvariantsHoldAtReset : Prop :=
  State.reset.InventorySafe ∧ State.reset.ScheduleSafe ∧ State.reset.DispatchSafe ∧ State.reset.PortsSafe ∧
    State.reset.TimeSafe

/-- Every step keeps the mass and the heats within their bounds, and an inventory is anchored only while settings are loaded (R1, R3). -/
def Obligations.StepsKeepTheInventoryInBounds : Prop :=
  ∀ s t : State, s.InventorySafe → step s = .next t → t.InventorySafe

/-- Every step keeps the book in order, without overlap or repeated reference and at no more than 64 blocks (R48), the ring increasing and
at no more than 96 records, a record open exactly while the clock is SET (R147, R149, R151), and the granted activation within the band
(R133). -/
def Obligations.StepsKeepTheScheduleInOrder : Prop :=
  ∀ s t : State, s.ScheduleSafe → step s = .next t → t.ScheduleSafe

/-- Every step keeps compressors and turbines from being active together, keeps at most one train of a kind STARTING and none active outside
SERVICE (R94, R108), gives the target only the sign of the trains that may run (R126), and keeps setpoints within bounds (R127, R128). -/
def Obligations.StepsKeepTheTrainsSafe : Prop :=
  ∀ s t : State, s.DispatchSafe → step s = .next t → t.DispatchSafe

/-- Every step keeps one response for each frame taken: none queued while none is owed, never two, and a held check's response still to come
(R177, R179, R80); every queued frame has its length byte and its CRC-8 (R174, R176); no command ends with a reset still held (log
entry 35). -/
def Obligations.StepsKeepOneResponsePerFrame : Prop :=
  ∀ s t : State, s.PortsSafe → step s = .next t → t.PortsSafe

/-- Every step keeps device time: no timer, stale test or loss tick is passed by the count, so each is taken at the tick at which the count
reaches its due time (R38, R89, R133); none is still due once the milliseconds of the next second run; the second of the next loss tick
is a multiple of 60 (R16, R38); the milliseconds of the interval clock stay below L × 60,000 (R39); the start stamps rise and lie in the
past (R91). The count is 48 bits wide: the step that would bring it back to 0, which R38 says no service life reaches, is left out. -/
def Obligations.StepsKeepTheTimersOnTime : Prop :=
  ∀ s t : State, s.TimeSafe → s.now + 1 < 2 ^ 48 → step s = .next t → t.TimeSafe
end

