-- ==== Sys2Proof/Laws/State.lean ====
section
/-! SUPPORT. One lemma for each field of the state and each replacement of one block: the field replaced reads as the new value,
every other field as before. -/

namespace Sys2Proof.Machine

@[simp] theorem State.withInv_inv (s : State) (x : Inventory) : (s.withInv x).inv = x := rfl
@[simp] theorem State.withInv_tb (s : State) (x : Inventory) : (s.withInv x).tb = s.tb := rfl
@[simp] theorem State.withInv_book (s : State) (x : Inventory) : (s.withInv x).book = s.book := rfl
@[simp] theorem State.withInv_prj (s : State) (x : Inventory) : (s.withInv x).prj = s.prj := rfl
@[simp] theorem State.withInv_trc (s : State) (x : Inventory) : (s.withInv x).trc = s.trc := rfl
@[simp] theorem State.withInv_du (s : State) (x : Inventory) : (s.withInv x).du = s.du := rfl
@[simp] theorem State.withInv_rsv (s : State) (x : Inventory) : (s.withInv x).rsv = s.rsv := rfl
@[simp] theorem State.withInv_slog (s : State) (x : Inventory) : (s.withInv x).slog = s.slog := rfl
@[simp] theorem State.withInv_prof (s : State) (x : Inventory) : (s.withInv x).prof = s.prof := rfl
@[simp] theorem State.withInv_ports (s : State) (x : Inventory) : (s.withInv x).ports = s.ports := rfl
@[simp] theorem State.withInv_settings (s : State) (x : Inventory) : (s.withInv x).settings = s.settings := rfl
@[simp] theorem State.withInv_resetHeld (s : State) (x : Inventory) : (s.withInv x).resetHeld = s.resetHeld := rfl
@[simp] theorem State.withInv_draws (s : State) (x : Inventory) : (s.withInv x).draws = s.draws := rfl
@[simp] theorem State.withInv_pending (s : State) (x : Inventory) : (s.withInv x).pending = s.pending := rfl

@[simp] theorem State.withTb_inv (s : State) (x : TimeBase) : (s.withTb x).inv = s.inv := rfl
@[simp] theorem State.withTb_tb (s : State) (x : TimeBase) : (s.withTb x).tb = x := rfl
@[simp] theorem State.withTb_book (s : State) (x : TimeBase) : (s.withTb x).book = s.book := rfl
@[simp] theorem State.withTb_prj (s : State) (x : TimeBase) : (s.withTb x).prj = s.prj := rfl
@[simp] theorem State.withTb_trc (s : State) (x : TimeBase) : (s.withTb x).trc = s.trc := rfl
@[simp] theorem State.withTb_du (s : State) (x : TimeBase) : (s.withTb x).du = s.du := rfl
@[simp] theorem State.withTb_rsv (s : State) (x : TimeBase) : (s.withTb x).rsv = s.rsv := rfl
@[simp] theorem State.withTb_slog (s : State) (x : TimeBase) : (s.withTb x).slog = s.slog := rfl
@[simp] theorem State.withTb_prof (s : State) (x : TimeBase) : (s.withTb x).prof = s.prof := rfl
@[simp] theorem State.withTb_ports (s : State) (x : TimeBase) : (s.withTb x).ports = s.ports := rfl
@[simp] theorem State.withTb_settings (s : State) (x : TimeBase) : (s.withTb x).settings = s.settings := rfl
@[simp] theorem State.withTb_resetHeld (s : State) (x : TimeBase) : (s.withTb x).resetHeld = s.resetHeld := rfl
@[simp] theorem State.withTb_draws (s : State) (x : TimeBase) : (s.withTb x).draws = s.draws := rfl
@[simp] theorem State.withTb_pending (s : State) (x : TimeBase) : (s.withTb x).pending = s.pending := rfl

@[simp] theorem State.withBook_inv (s : State) (x : Book) : (s.withBook x).inv = s.inv := rfl
@[simp] theorem State.withBook_tb (s : State) (x : Book) : (s.withBook x).tb = s.tb := rfl
@[simp] theorem State.withBook_book (s : State) (x : Book) : (s.withBook x).book = x := rfl
@[simp] theorem State.withBook_prj (s : State) (x : Book) : (s.withBook x).prj = s.prj := rfl
@[simp] theorem State.withBook_trc (s : State) (x : Book) : (s.withBook x).trc = s.trc := rfl
@[simp] theorem State.withBook_du (s : State) (x : Book) : (s.withBook x).du = s.du := rfl
@[simp] theorem State.withBook_rsv (s : State) (x : Book) : (s.withBook x).rsv = s.rsv := rfl
@[simp] theorem State.withBook_slog (s : State) (x : Book) : (s.withBook x).slog = s.slog := rfl
@[simp] theorem State.withBook_prof (s : State) (x : Book) : (s.withBook x).prof = s.prof := rfl
@[simp] theorem State.withBook_ports (s : State) (x : Book) : (s.withBook x).ports = s.ports := rfl
@[simp] theorem State.withBook_settings (s : State) (x : Book) : (s.withBook x).settings = s.settings := rfl
@[simp] theorem State.withBook_resetHeld (s : State) (x : Book) : (s.withBook x).resetHeld = s.resetHeld := rfl
@[simp] theorem State.withBook_draws (s : State) (x : Book) : (s.withBook x).draws = s.draws := rfl
@[simp] theorem State.withBook_pending (s : State) (x : Book) : (s.withBook x).pending = s.pending := rfl

@[simp] theorem State.withPrj_inv (s : State) (x : Engine) : (s.withPrj x).inv = s.inv := rfl
@[simp] theorem State.withPrj_tb (s : State) (x : Engine) : (s.withPrj x).tb = s.tb := rfl
@[simp] theorem State.withPrj_book (s : State) (x : Engine) : (s.withPrj x).book = s.book := rfl
@[simp] theorem State.withPrj_prj (s : State) (x : Engine) : (s.withPrj x).prj = x := rfl
@[simp] theorem State.withPrj_trc (s : State) (x : Engine) : (s.withPrj x).trc = s.trc := rfl
@[simp] theorem State.withPrj_du (s : State) (x : Engine) : (s.withPrj x).du = s.du := rfl
@[simp] theorem State.withPrj_rsv (s : State) (x : Engine) : (s.withPrj x).rsv = s.rsv := rfl
@[simp] theorem State.withPrj_slog (s : State) (x : Engine) : (s.withPrj x).slog = s.slog := rfl
@[simp] theorem State.withPrj_prof (s : State) (x : Engine) : (s.withPrj x).prof = s.prof := rfl
@[simp] theorem State.withPrj_ports (s : State) (x : Engine) : (s.withPrj x).ports = s.ports := rfl
@[simp] theorem State.withPrj_settings (s : State) (x : Engine) : (s.withPrj x).settings = s.settings := rfl
@[simp] theorem State.withPrj_resetHeld (s : State) (x : Engine) : (s.withPrj x).resetHeld = s.resetHeld := rfl
@[simp] theorem State.withPrj_draws (s : State) (x : Engine) : (s.withPrj x).draws = s.draws := rfl
@[simp] theorem State.withPrj_pending (s : State) (x : Engine) : (s.withPrj x).pending = s.pending := rfl

@[simp] theorem State.withTrc_inv (s : State) (x : TrainController) : (s.withTrc x).inv = s.inv := rfl
@[simp] theorem State.withTrc_tb (s : State) (x : TrainController) : (s.withTrc x).tb = s.tb := rfl
@[simp] theorem State.withTrc_book (s : State) (x : TrainController) : (s.withTrc x).book = s.book := rfl
@[simp] theorem State.withTrc_prj (s : State) (x : TrainController) : (s.withTrc x).prj = s.prj := rfl
@[simp] theorem State.withTrc_trc (s : State) (x : TrainController) : (s.withTrc x).trc = x := rfl
@[simp] theorem State.withTrc_du (s : State) (x : TrainController) : (s.withTrc x).du = s.du := rfl
@[simp] theorem State.withTrc_rsv (s : State) (x : TrainController) : (s.withTrc x).rsv = s.rsv := rfl
@[simp] theorem State.withTrc_slog (s : State) (x : TrainController) : (s.withTrc x).slog = s.slog := rfl
@[simp] theorem State.withTrc_prof (s : State) (x : TrainController) : (s.withTrc x).prof = s.prof := rfl
@[simp] theorem State.withTrc_ports (s : State) (x : TrainController) : (s.withTrc x).ports = s.ports := rfl
@[simp] theorem State.withTrc_settings (s : State) (x : TrainController) : (s.withTrc x).settings = s.settings := rfl
@[simp] theorem State.withTrc_resetHeld (s : State) (x : TrainController) : (s.withTrc x).resetHeld = s.resetHeld := rfl
@[simp] theorem State.withTrc_draws (s : State) (x : TrainController) : (s.withTrc x).draws = s.draws := rfl
@[simp] theorem State.withTrc_pending (s : State) (x : TrainController) : (s.withTrc x).pending = s.pending := rfl

@[simp] theorem State.withDu_inv (s : State) (x : DispatchUnit) : (s.withDu x).inv = s.inv := rfl
@[simp] theorem State.withDu_tb (s : State) (x : DispatchUnit) : (s.withDu x).tb = s.tb := rfl
@[simp] theorem State.withDu_book (s : State) (x : DispatchUnit) : (s.withDu x).book = s.book := rfl
@[simp] theorem State.withDu_prj (s : State) (x : DispatchUnit) : (s.withDu x).prj = s.prj := rfl
@[simp] theorem State.withDu_trc (s : State) (x : DispatchUnit) : (s.withDu x).trc = s.trc := rfl
@[simp] theorem State.withDu_du (s : State) (x : DispatchUnit) : (s.withDu x).du = x := rfl
@[simp] theorem State.withDu_rsv (s : State) (x : DispatchUnit) : (s.withDu x).rsv = s.rsv := rfl
@[simp] theorem State.withDu_slog (s : State) (x : DispatchUnit) : (s.withDu x).slog = s.slog := rfl
@[simp] theorem State.withDu_prof (s : State) (x : DispatchUnit) : (s.withDu x).prof = s.prof := rfl
@[simp] theorem State.withDu_ports (s : State) (x : DispatchUnit) : (s.withDu x).ports = s.ports := rfl
@[simp] theorem State.withDu_settings (s : State) (x : DispatchUnit) : (s.withDu x).settings = s.settings := rfl
@[simp] theorem State.withDu_resetHeld (s : State) (x : DispatchUnit) : (s.withDu x).resetHeld = s.resetHeld := rfl
@[simp] theorem State.withDu_draws (s : State) (x : DispatchUnit) : (s.withDu x).draws = s.draws := rfl
@[simp] theorem State.withDu_pending (s : State) (x : DispatchUnit) : (s.withDu x).pending = s.pending := rfl

@[simp] theorem State.withRsv_inv (s : State) (x : Reserve) : (s.withRsv x).inv = s.inv := rfl
@[simp] theorem State.withRsv_tb (s : State) (x : Reserve) : (s.withRsv x).tb = s.tb := rfl
@[simp] theorem State.withRsv_book (s : State) (x : Reserve) : (s.withRsv x).book = s.book := rfl
@[simp] theorem State.withRsv_prj (s : State) (x : Reserve) : (s.withRsv x).prj = s.prj := rfl
@[simp] theorem State.withRsv_trc (s : State) (x : Reserve) : (s.withRsv x).trc = s.trc := rfl
@[simp] theorem State.withRsv_du (s : State) (x : Reserve) : (s.withRsv x).du = s.du := rfl
@[simp] theorem State.withRsv_rsv (s : State) (x : Reserve) : (s.withRsv x).rsv = x := rfl
@[simp] theorem State.withRsv_slog (s : State) (x : Reserve) : (s.withRsv x).slog = s.slog := rfl
@[simp] theorem State.withRsv_prof (s : State) (x : Reserve) : (s.withRsv x).prof = s.prof := rfl
@[simp] theorem State.withRsv_ports (s : State) (x : Reserve) : (s.withRsv x).ports = s.ports := rfl
@[simp] theorem State.withRsv_settings (s : State) (x : Reserve) : (s.withRsv x).settings = s.settings := rfl
@[simp] theorem State.withRsv_resetHeld (s : State) (x : Reserve) : (s.withRsv x).resetHeld = s.resetHeld := rfl
@[simp] theorem State.withRsv_draws (s : State) (x : Reserve) : (s.withRsv x).draws = s.draws := rfl
@[simp] theorem State.withRsv_pending (s : State) (x : Reserve) : (s.withRsv x).pending = s.pending := rfl

@[simp] theorem State.withSlog_inv (s : State) (x : SettlementLog) : (s.withSlog x).inv = s.inv := rfl
@[simp] theorem State.withSlog_tb (s : State) (x : SettlementLog) : (s.withSlog x).tb = s.tb := rfl
@[simp] theorem State.withSlog_book (s : State) (x : SettlementLog) : (s.withSlog x).book = s.book := rfl
@[simp] theorem State.withSlog_prj (s : State) (x : SettlementLog) : (s.withSlog x).prj = s.prj := rfl
@[simp] theorem State.withSlog_trc (s : State) (x : SettlementLog) : (s.withSlog x).trc = s.trc := rfl
@[simp] theorem State.withSlog_du (s : State) (x : SettlementLog) : (s.withSlog x).du = s.du := rfl
@[simp] theorem State.withSlog_rsv (s : State) (x : SettlementLog) : (s.withSlog x).rsv = s.rsv := rfl
@[simp] theorem State.withSlog_slog (s : State) (x : SettlementLog) : (s.withSlog x).slog = x := rfl
@[simp] theorem State.withSlog_prof (s : State) (x : SettlementLog) : (s.withSlog x).prof = s.prof := rfl
@[simp] theorem State.withSlog_ports (s : State) (x : SettlementLog) : (s.withSlog x).ports = s.ports := rfl
@[simp] theorem State.withSlog_settings (s : State) (x : SettlementLog) : (s.withSlog x).settings = s.settings := rfl
@[simp] theorem State.withSlog_resetHeld (s : State) (x : SettlementLog) : (s.withSlog x).resetHeld = s.resetHeld := rfl
@[simp] theorem State.withSlog_draws (s : State) (x : SettlementLog) : (s.withSlog x).draws = s.draws := rfl
@[simp] theorem State.withSlog_pending (s : State) (x : SettlementLog) : (s.withSlog x).pending = s.pending := rfl

@[simp] theorem State.withProf_inv (s : State) (x : Profile) : (s.withProf x).inv = s.inv := rfl
@[simp] theorem State.withProf_tb (s : State) (x : Profile) : (s.withProf x).tb = s.tb := rfl
@[simp] theorem State.withProf_book (s : State) (x : Profile) : (s.withProf x).book = s.book := rfl
@[simp] theorem State.withProf_prj (s : State) (x : Profile) : (s.withProf x).prj = s.prj := rfl
@[simp] theorem State.withProf_trc (s : State) (x : Profile) : (s.withProf x).trc = s.trc := rfl
@[simp] theorem State.withProf_du (s : State) (x : Profile) : (s.withProf x).du = s.du := rfl
@[simp] theorem State.withProf_rsv (s : State) (x : Profile) : (s.withProf x).rsv = s.rsv := rfl
@[simp] theorem State.withProf_slog (s : State) (x : Profile) : (s.withProf x).slog = s.slog := rfl
@[simp] theorem State.withProf_prof (s : State) (x : Profile) : (s.withProf x).prof = x := rfl
@[simp] theorem State.withProf_ports (s : State) (x : Profile) : (s.withProf x).ports = s.ports := rfl
@[simp] theorem State.withProf_settings (s : State) (x : Profile) : (s.withProf x).settings = s.settings := rfl
@[simp] theorem State.withProf_resetHeld (s : State) (x : Profile) : (s.withProf x).resetHeld = s.resetHeld := rfl
@[simp] theorem State.withProf_draws (s : State) (x : Profile) : (s.withProf x).draws = s.draws := rfl
@[simp] theorem State.withProf_pending (s : State) (x : Profile) : (s.withProf x).pending = s.pending := rfl

@[simp] theorem State.withPorts_inv (s : State) (x : Ports) : (s.withPorts x).inv = s.inv := rfl
@[simp] theorem State.withPorts_tb (s : State) (x : Ports) : (s.withPorts x).tb = s.tb := rfl
@[simp] theorem State.withPorts_book (s : State) (x : Ports) : (s.withPorts x).book = s.book := rfl
@[simp] theorem State.withPorts_prj (s : State) (x : Ports) : (s.withPorts x).prj = s.prj := rfl
@[simp] theorem State.withPorts_trc (s : State) (x : Ports) : (s.withPorts x).trc = s.trc := rfl
@[simp] theorem State.withPorts_du (s : State) (x : Ports) : (s.withPorts x).du = s.du := rfl
@[simp] theorem State.withPorts_rsv (s : State) (x : Ports) : (s.withPorts x).rsv = s.rsv := rfl
@[simp] theorem State.withPorts_slog (s : State) (x : Ports) : (s.withPorts x).slog = s.slog := rfl
@[simp] theorem State.withPorts_prof (s : State) (x : Ports) : (s.withPorts x).prof = s.prof := rfl
@[simp] theorem State.withPorts_ports (s : State) (x : Ports) : (s.withPorts x).ports = x := rfl
@[simp] theorem State.withPorts_settings (s : State) (x : Ports) : (s.withPorts x).settings = s.settings := rfl
@[simp] theorem State.withPorts_resetHeld (s : State) (x : Ports) : (s.withPorts x).resetHeld = s.resetHeld := rfl
@[simp] theorem State.withPorts_draws (s : State) (x : Ports) : (s.withPorts x).draws = s.draws := rfl
@[simp] theorem State.withPorts_pending (s : State) (x : Ports) : (s.withPorts x).pending = s.pending := rfl

@[simp] theorem State.withSettings_inv (s : State) (x : Option Settings) : (s.withSettings x).inv = s.inv := rfl
@[simp] theorem State.withSettings_tb (s : State) (x : Option Settings) : (s.withSettings x).tb = s.tb := rfl
@[simp] theorem State.withSettings_book (s : State) (x : Option Settings) : (s.withSettings x).book = s.book := rfl
@[simp] theorem State.withSettings_prj (s : State) (x : Option Settings) : (s.withSettings x).prj = s.prj := rfl
@[simp] theorem State.withSettings_trc (s : State) (x : Option Settings) : (s.withSettings x).trc = s.trc := rfl
@[simp] theorem State.withSettings_du (s : State) (x : Option Settings) : (s.withSettings x).du = s.du := rfl
@[simp] theorem State.withSettings_rsv (s : State) (x : Option Settings) : (s.withSettings x).rsv = s.rsv := rfl
@[simp] theorem State.withSettings_slog (s : State) (x : Option Settings) : (s.withSettings x).slog = s.slog := rfl
@[simp] theorem State.withSettings_prof (s : State) (x : Option Settings) : (s.withSettings x).prof = s.prof := rfl
@[simp] theorem State.withSettings_ports (s : State) (x : Option Settings) : (s.withSettings x).ports = s.ports := rfl
@[simp] theorem State.withSettings_settings (s : State) (x : Option Settings) : (s.withSettings x).settings = x := rfl
@[simp] theorem State.withSettings_resetHeld (s : State) (x : Option Settings) : (s.withSettings x).resetHeld = s.resetHeld := rfl
@[simp] theorem State.withSettings_draws (s : State) (x : Option Settings) : (s.withSettings x).draws = s.draws := rfl
@[simp] theorem State.withSettings_pending (s : State) (x : Option Settings) : (s.withSettings x).pending = s.pending := rfl

@[simp] theorem State.withResetHeld_inv (s : State) (x : Bool) : (s.withResetHeld x).inv = s.inv := rfl
@[simp] theorem State.withResetHeld_tb (s : State) (x : Bool) : (s.withResetHeld x).tb = s.tb := rfl
@[simp] theorem State.withResetHeld_book (s : State) (x : Bool) : (s.withResetHeld x).book = s.book := rfl
@[simp] theorem State.withResetHeld_prj (s : State) (x : Bool) : (s.withResetHeld x).prj = s.prj := rfl
@[simp] theorem State.withResetHeld_trc (s : State) (x : Bool) : (s.withResetHeld x).trc = s.trc := rfl
@[simp] theorem State.withResetHeld_du (s : State) (x : Bool) : (s.withResetHeld x).du = s.du := rfl
@[simp] theorem State.withResetHeld_rsv (s : State) (x : Bool) : (s.withResetHeld x).rsv = s.rsv := rfl
@[simp] theorem State.withResetHeld_slog (s : State) (x : Bool) : (s.withResetHeld x).slog = s.slog := rfl
@[simp] theorem State.withResetHeld_prof (s : State) (x : Bool) : (s.withResetHeld x).prof = s.prof := rfl
@[simp] theorem State.withResetHeld_ports (s : State) (x : Bool) : (s.withResetHeld x).ports = s.ports := rfl
@[simp] theorem State.withResetHeld_settings (s : State) (x : Bool) : (s.withResetHeld x).settings = s.settings := rfl
@[simp] theorem State.withResetHeld_resetHeld (s : State) (x : Bool) : (s.withResetHeld x).resetHeld = x := rfl
@[simp] theorem State.withResetHeld_draws (s : State) (x : Bool) : (s.withResetHeld x).draws = s.draws := rfl
@[simp] theorem State.withResetHeld_pending (s : State) (x : Bool) : (s.withResetHeld x).pending = s.pending := rfl

@[simp] theorem State.withDraws_inv (s : State) (x : Nat) : (s.withDraws x).inv = s.inv := rfl
@[simp] theorem State.withDraws_tb (s : State) (x : Nat) : (s.withDraws x).tb = s.tb := rfl
@[simp] theorem State.withDraws_book (s : State) (x : Nat) : (s.withDraws x).book = s.book := rfl
@[simp] theorem State.withDraws_prj (s : State) (x : Nat) : (s.withDraws x).prj = s.prj := rfl
@[simp] theorem State.withDraws_trc (s : State) (x : Nat) : (s.withDraws x).trc = s.trc := rfl
@[simp] theorem State.withDraws_du (s : State) (x : Nat) : (s.withDraws x).du = s.du := rfl
@[simp] theorem State.withDraws_rsv (s : State) (x : Nat) : (s.withDraws x).rsv = s.rsv := rfl
@[simp] theorem State.withDraws_slog (s : State) (x : Nat) : (s.withDraws x).slog = s.slog := rfl
@[simp] theorem State.withDraws_prof (s : State) (x : Nat) : (s.withDraws x).prof = s.prof := rfl
@[simp] theorem State.withDraws_ports (s : State) (x : Nat) : (s.withDraws x).ports = s.ports := rfl
@[simp] theorem State.withDraws_settings (s : State) (x : Nat) : (s.withDraws x).settings = s.settings := rfl
@[simp] theorem State.withDraws_resetHeld (s : State) (x : Nat) : (s.withDraws x).resetHeld = s.resetHeld := rfl
@[simp] theorem State.withDraws_draws (s : State) (x : Nat) : (s.withDraws x).draws = x := rfl
@[simp] theorem State.withDraws_pending (s : State) (x : Nat) : (s.withDraws x).pending = s.pending := rfl

@[simp] theorem State.withPending_inv (s : State) (x : List Instr) : (s.withPending x).inv = s.inv := rfl
@[simp] theorem State.withPending_tb (s : State) (x : List Instr) : (s.withPending x).tb = s.tb := rfl
@[simp] theorem State.withPending_book (s : State) (x : List Instr) : (s.withPending x).book = s.book := rfl
@[simp] theorem State.withPending_prj (s : State) (x : List Instr) : (s.withPending x).prj = s.prj := rfl
@[simp] theorem State.withPending_trc (s : State) (x : List Instr) : (s.withPending x).trc = s.trc := rfl
@[simp] theorem State.withPending_du (s : State) (x : List Instr) : (s.withPending x).du = s.du := rfl
@[simp] theorem State.withPending_rsv (s : State) (x : List Instr) : (s.withPending x).rsv = s.rsv := rfl
@[simp] theorem State.withPending_slog (s : State) (x : List Instr) : (s.withPending x).slog = s.slog := rfl
@[simp] theorem State.withPending_prof (s : State) (x : List Instr) : (s.withPending x).prof = s.prof := rfl
@[simp] theorem State.withPending_ports (s : State) (x : List Instr) : (s.withPending x).ports = s.ports := rfl
@[simp] theorem State.withPending_settings (s : State) (x : List Instr) : (s.withPending x).settings = s.settings := rfl
@[simp] theorem State.withPending_resetHeld (s : State) (x : List Instr) : (s.withPending x).resetHeld = s.resetHeld := rfl
@[simp] theorem State.withPending_draws (s : State) (x : List Instr) : (s.withPending x).draws = s.draws := rfl
@[simp] theorem State.withPending_pending (s : State) (x : List Instr) : (s.withPending x).pending = x := rfl

end Sys2Proof.Machine
end

