-- ==== Sys2Proof/Laws/Frames.lean ====
section
/-! SUPPORT. Frames: for each shared operation, the parts of the state it may change. `State.onlyChanges` composes by
`onlyChanges_trans`; `onlyChanges.part` turns a frame into the equation of one part. -/

namespace Sys2Proof.Machine

theorem onlyChanges_refl (s : State) (l : List Part) : s.onlyChanges s l := by
  intro x _; cases x <;> rfl

theorem State.same.trans {s t u : State} {x : Part} (h : s.same t x) (g : t.same u x) : s.same u x := by
  cases x <;> exact Eq.trans g h

theorem onlyChanges_trans {s t u : State} {l : List Part} (h : s.onlyChanges t l) (g : t.onlyChanges u l) :
    s.onlyChanges u l :=
  fun x hx => (h x hx).trans (g x hx)

theorem onlyChanges_mono {s t : State} {l m : List Part} (h : s.onlyChanges t l) (hl : ∀ x ∈ l, x ∈ m) :
    s.onlyChanges t m :=
  fun x hx => h x fun hm => hx (hl x hm)

/-- A fold of steps that each keep a frame keeps it. -/
theorem foldl_frame {α : Type} {f : State → α → State} {l : List Part}
    (h : ∀ (s : State) (a : α), s.onlyChanges (f s a) l) :
    ∀ (as : List α) (s : State), s.onlyChanges (as.foldl f s) l
  | [], s => onlyChanges_refl s l
  | a :: as, s => onlyChanges_trans (h s a) (foldl_frame h as (f s a))

/-! ### A frame as the equation of one part -/

theorem frame_inv {s t : State} {l : List Part} (h : s.onlyChanges t l) (hx : Part.inv ∉ l := by decide) :
    t.inv = s.inv := h .inv hx
theorem frame_tb {s t : State} {l : List Part} (h : s.onlyChanges t l) (hx : Part.tb ∉ l := by decide) :
    t.tb = s.tb := h .tb hx
theorem frame_book {s t : State} {l : List Part} (h : s.onlyChanges t l) (hx : Part.book ∉ l := by decide) :
    t.book = s.book := h .book hx
theorem frame_prj {s t : State} {l : List Part} (h : s.onlyChanges t l) (hx : Part.prj ∉ l := by decide) :
    t.prj = s.prj := h .prj hx
theorem frame_trc {s t : State} {l : List Part} (h : s.onlyChanges t l) (hx : Part.trc ∉ l := by decide) :
    t.trc = s.trc := h .trc hx
theorem frame_du {s t : State} {l : List Part} (h : s.onlyChanges t l) (hx : Part.du ∉ l := by decide) :
    t.du = s.du := h .du hx
theorem frame_rsv {s t : State} {l : List Part} (h : s.onlyChanges t l) (hx : Part.rsv ∉ l := by decide) :
    t.rsv = s.rsv := h .rsv hx
theorem frame_slog {s t : State} {l : List Part} (h : s.onlyChanges t l) (hx : Part.slog ∉ l := by decide) :
    t.slog = s.slog := h .slog hx
theorem frame_prof {s t : State} {l : List Part} (h : s.onlyChanges t l) (hx : Part.prof ∉ l := by decide) :
    t.prof = s.prof := h .prof hx
theorem frame_settings {s t : State} {l : List Part} (h : s.onlyChanges t l) (hx : Part.settings ∉ l := by decide) :
    t.settings = s.settings := h .settings hx
theorem frame_resetHeld {s t : State} {l : List Part} (h : s.onlyChanges t l) (hx : Part.resetHeld ∉ l := by decide) :
    t.resetHeld = s.resetHeld := h .resetHeld hx
theorem frame_draws {s t : State} {l : List Part} (h : s.onlyChanges t l) (hx : Part.draws ∉ l := by decide) :
    t.draws = s.draws := h .draws hx
theorem frame_pending {s t : State} {l : List Part} (h : s.onlyChanges t l) (hx : Part.pending ∉ l := by decide) :
    t.pending = s.pending := h .pending hx

/-! ### Replacing one block -/

theorem withInv_frame (s : State) (x : Inventory) : s.onlyChanges (s.withInv x) [.inv] := by
  intro y hy; cases y <;> first | rfl | exact absurd (by decide) hy
theorem withTb_frame (s : State) (x : TimeBase) : s.onlyChanges (s.withTb x) [.tb] := by
  intro y hy; cases y <;> first | rfl | exact absurd (by decide) hy
theorem withBook_frame (s : State) (x : Book) : s.onlyChanges (s.withBook x) [.book] := by
  intro y hy; cases y <;> first | rfl | exact absurd (by decide) hy
theorem withPrj_frame (s : State) (x : Engine) : s.onlyChanges (s.withPrj x) [.prj] := by
  intro y hy; cases y <;> first | rfl | exact absurd (by decide) hy
theorem withTrc_frame (s : State) (x : TrainController) : s.onlyChanges (s.withTrc x) [.trc] := by
  intro y hy; cases y <;> first | rfl | exact absurd (by decide) hy
theorem withDu_frame (s : State) (x : DispatchUnit) : s.onlyChanges (s.withDu x) [.du] := by
  intro y hy; cases y <;> first | rfl | exact absurd (by decide) hy
theorem withRsv_frame (s : State) (x : Reserve) : s.onlyChanges (s.withRsv x) [.rsv] := by
  intro y hy; cases y <;> first | rfl | exact absurd (by decide) hy
theorem withSlog_frame (s : State) (x : SettlementLog) : s.onlyChanges (s.withSlog x) [.slog] := by
  intro y hy; cases y <;> first | rfl | exact absurd (by decide) hy
theorem withProf_frame (s : State) (x : Profile) : s.onlyChanges (s.withProf x) [.prof] := by
  intro y hy; cases y <;> first | rfl | exact absurd (by decide) hy
theorem withSettings_frame (s : State) (x : Option Settings) : s.onlyChanges (s.withSettings x) [.settings] := by
  intro y hy; cases y <;> first | rfl | exact absurd (by decide) hy
theorem withResetHeld_frame (s : State) (x : Bool) : s.onlyChanges (s.withResetHeld x) [.resetHeld] := by
  intro y hy; cases y <;> first | rfl | exact absurd (by decide) hy
theorem withPending_frame (s : State) (x : List Instr) : s.onlyChanges (s.withPending x) [.pending] := by
  intro y hy; cases y <;> first | rfl | exact absurd (by decide) hy

theorem setPort_frame (s : State) (p : Port) (x : PortState) : s.onlyChanges (s.setPort p x) [portPart p] := by
  intro y hy; cases p <;> cases y <;> first | rfl | exact absurd (by decide) hy

/-! ### Shared operations -/

theorem raise_frame (s : State) (p : Port) (c : Cause) : s.onlyChanges (s.raise p c) [portPart p] := setPort_frame s p _

theorem markRecord_frame (s : State) (f : RecordFlags → RecordFlags) : s.onlyChanges (s.markRecord f) [.slog] := by
  unfold State.markRecord; split
  · exact onlyChanges_refl s _
  · exact withSlog_frame s _

theorem countError_frame (s : State) (p : Port) : s.onlyChanges (s.countError p) [portPart p] := by
  unfold State.countError; dsimp only; split
  · exact onlyChanges_trans (setPort_frame s p _) (raise_frame _ p _)
  · exact setPort_frame s p _

theorem answer_frame (s : State) (p : Port) (k : Byte) (r : Result) (f : List Byte) :
    s.onlyChanges (s.answer p k r f) [portPart p] := setPort_frame s p _

theorem respond_frame (s : State) (p : Port) (k : Byte) (r : Result) (f : List Byte) :
    s.onlyChanges (s.respond p k r f) [portPart p] := setPort_frame s p _

theorem notice_frame (s : State) (r : Result) (f : List Byte) : s.onlyChanges (s.notice r f) [.tp] := setPort_frame s .tp _

theorem gridFrame_frame (s : State) : s.onlyChanges s.gridFrame [.rsv] := by
  unfold State.gridFrame; dsimp only; split <;> exact withRsv_frame s _

theorem startReview_frame (s : State) : s.onlyChanges s.startReview [.prj] := by
  unfold State.startReview; split
  · exact onlyChanges_refl s _
  · exact withPrj_frame s _

theorem requestReview_frame (s : State) : s.onlyChanges s.requestReview [.prj] := by
  unfold State.requestReview; split
  · exact startReview_frame s
  · exact withPrj_frame s _

theorem startPendingReview_frame (s : State) : s.onlyChanges s.startPendingReview [.prj] := by
  unfold State.startPendingReview; split
  · exact startReview_frame s
  · exact onlyChanges_refl s _

theorem reportEnd_frame (s : State) (c : Terms) (r : Result) (f : Option Failure) :
    s.onlyChanges (s.reportEnd c r f) [.tp] := by
  unfold State.reportEnd; split
  · exact respond_frame s .tp _ _ _
  · exact onlyChanges_trans (raise_frame s .tp _) (notice_frame _ _ _)

theorem startCheck_frame (s : State) (c : Terms) : s.onlyChanges (s.startCheck c) [.prj, .tp] := by
  unfold State.startCheck; split
  · exact onlyChanges_mono (withPrj_frame s _) (by decide)
  · exact onlyChanges_trans (onlyChanges_mono (withPrj_frame s _) (by decide))
      (onlyChanges_mono (reportEnd_frame _ c _ _) (by decide))

theorem handOver_frame (s : State) (c : Terms) : s.onlyChanges (s.handOver c) [.prj, .tp] := by
  unfold State.handOver; split
  · exact startCheck_frame s c
  · exact onlyChanges_mono (withPrj_frame s _) (by decide)

theorem passOn_frame (s : State) : s.onlyChanges s.passOn [.prj, .tp] := by
  unfold State.passOn; dsimp only
  have h := onlyChanges_mono (m := [.prj, .tp]) (withPrj_frame s { s.prj with running := none }) (by decide)
  split
  · exact onlyChanges_trans h (onlyChanges_mono (startReview_frame _) (by decide))
  · split
    · exact onlyChanges_trans h (startCheck_frame _ _)
    · exact h

theorem setMarks_frame (s : State) (bs : List Block) (i : Bool) (f : Option Failure) :
    s.onlyChanges (s.setMarks bs i f) [.book, .pp, .tp] := by
  unfold State.setMarks; dsimp only
  have h := onlyChanges_mono (m := [.book, .pp, .tp])
    (withBook_frame s ⟨markBook f bs, if i || decide (markBook f bs ≠ bs) then s.book.revision + 1 else s.book.revision⟩)
    (by decide)
  split
  · exact onlyChanges_trans h (onlyChanges_trans (onlyChanges_mono (raise_frame _ .pp _) (by decide))
      (onlyChanges_mono (raise_frame _ .tp _) (by decide)))
  · exact h

/-! ### Trains -/

/-- What a train's change of state may change beside its own record. -/
abbrev trainParts : List Part := [.prj, .trc, .du, .pp, .tp]

theorem setTrain_frame (s : State) (t : Train) (r : TrainRecord) : s.onlyChanges (s.setTrain t r) [.trc] := withTrc_frame s _
theorem setSetpoint_frame (s : State) (t : Train) (kw : Nat) : s.onlyChanges (s.setSetpoint t kw) [.du] := withDu_frame s _

theorem changeAvailability_frame (s : State) : s.onlyChanges s.changeAvailability [.trc, .tp, .prj] := by
  unfold State.changeAvailability
  exact onlyChanges_trans (onlyChanges_mono (withTrc_frame s _) (by decide))
    (onlyChanges_trans (onlyChanges_mono (raise_frame _ .tp _) (by decide))
      (onlyChanges_mono (requestReview_frame _) (by decide)))

theorem leftActive_frame (s : State) (k : Kind) : s.onlyChanges (s.leftActive k) [.du] := by
  unfold State.leftActive; split
  · exact withDu_frame s _
  · exact onlyChanges_refl s _

theorem trip_frame (s : State) (t : Train) (r : TripReason) : s.onlyChanges (s.trip t r) trainParts := by
  unfold State.trip; dsimp only
  have h : s.onlyChanges _ trainParts :=
    onlyChanges_trans (onlyChanges_mono (setTrain_frame s t { (s.train t).leave with state := .tripped, reason := some r })
        (by decide))
      (onlyChanges_trans (onlyChanges_mono (setSetpoint_frame _ t 0) (by decide))
        (onlyChanges_trans (onlyChanges_mono (raise_frame _ .pp .trip) (by decide))
          (onlyChanges_mono (changeAvailability_frame _) (by decide))))
  split
  · exact onlyChanges_trans h (onlyChanges_mono (leftActive_frame _ _) (by decide))
  · exact h

theorem tripActive_frame (s : State) (r : TripReason) : s.onlyChanges (s.tripActive r) trainParts :=
  foldl_frame (fun s t => by
    unfold State.tripIfActive; split
    · exact trip_frame s t r
    · exact onlyChanges_refl s _) _ _

theorem lock_frame (s : State) (t : Train) : s.onlyChanges (s.lock t) [.trc] := setTrain_frame s t _

theorem tryRelease_frame (s : State) (t : Train) : s.onlyChanges (s.tryRelease t) [.trc, .tp, .prj] := by
  unfold State.tryRelease; dsimp only; split
  · exact onlyChanges_trans (onlyChanges_mono (setTrain_frame s t _) (by decide)) (changeAvailability_frame _)
  · exact onlyChanges_refl s _

theorem completeStart_frame (s : State) (t : Train) : s.onlyChanges (s.completeStart t) [.trc, .du] :=
  onlyChanges_trans (onlyChanges_mono (setTrain_frame s t _) (by decide))
    (onlyChanges_mono (setSetpoint_frame _ t _) (by decide))

theorem completeStop_frame (s : State) (t : Train) : s.onlyChanges (s.completeStop t) [.trc, .du] :=
  onlyChanges_trans (onlyChanges_mono (setTrain_frame s t _) (by decide))
    (onlyChanges_mono (leftActive_frame _ _) (by decide))

theorem applyReport_frame (s : State) (t : Train) (r : Reported) : s.onlyChanges (s.applyReport t r) trainParts := by
  unfold State.applyReport; split
  all_goals first
    | exact onlyChanges_refl s _
    | exact trip_frame s t _
    | exact onlyChanges_mono (lock_frame s t) (by decide)
    | exact onlyChanges_mono (completeStart_frame s t) (by decide)
    | exact onlyChanges_mono (completeStop_frame s t) (by decide)

theorem takeReport_frame (report : MeterReport) (s : State) (t : Train) :
    s.onlyChanges (State.takeReport report s t) trainParts := by
  unfold State.takeReport; dsimp only; split
  · exact onlyChanges_refl s _
  · exact onlyChanges_refl s _
  · exact onlyChanges_trans (onlyChanges_mono (setTrain_frame s t _) (by decide)) (applyReport_frame _ t _)

theorem takeReports_frame (s : State) (report : MeterReport) : s.onlyChanges (s.takeReports report) trainParts :=
  foldl_frame (takeReport_frame report) _ _

theorem startTrain_frame (s : State) (t : Train) : s.onlyChanges (s.startTrain t) [.trc] := by
  unfold State.startTrain; split
  · exact setTrain_frame s t _
  · exact onlyChanges_refl s _

theorem stopTrain_frame (s : State) (t : Train) : s.onlyChanges (s.stopTrain t) [.trc, .du] := by
  unfold State.stopTrain; split
  · exact onlyChanges_trans (onlyChanges_mono (setTrain_frame s t _) (by decide))
      (onlyChanges_mono (setSetpoint_frame _ t 0) (by decide))
  · exact onlyChanges_refl s _

theorem applyInstalled_frame (s : State) (t : Train) : s.onlyChanges (s.applyInstalled t) trainParts := by
  unfold State.applyInstalled; split
  · split
    · exact onlyChanges_mono (setTrain_frame s t _) (by decide)
    · exact onlyChanges_refl s _
  · unfold State.makeAbsent; dsimp only
    have h : s.onlyChanges _ trainParts :=
      onlyChanges_trans (onlyChanges_mono (setTrain_frame s t
          { TrainRecord.afterReset (s.train t).lineHigh with sensitivity := (s.train t).sensitivity }) (by decide))
        (onlyChanges_mono (setSetpoint_frame _ t 0) (by decide))
    split
    · exact h
    · exact onlyChanges_trans h (onlyChanges_mono (changeAvailability_frame _) (by decide))

theorem fallingEdge_frame (s : State) (t : Train) : s.onlyChanges (s.fallingEdge t) trainParts := by
  unfold State.fallingEdge; dsimp only
  have h : s.onlyChanges (s.setTrain t { s.train t with lineHigh := false }) trainParts :=
    onlyChanges_mono (setTrain_frame s t _) (by decide)
  split <;> first
    | exact onlyChanges_trans h (trip_frame _ t _)
    | exact onlyChanges_trans h (onlyChanges_mono (setTrain_frame _ t _) (by decide))
    | exact h

theorem risingEdge_frame (s : State) (t : Train) : s.onlyChanges (s.risingEdge t) [.trc, .tp, .prj] := by
  unfold State.risingEdge; dsimp only
  have h : s.onlyChanges (s.setTrain t { s.train t with lineHigh := true }) [.trc, .tp, .prj] :=
    onlyChanges_mono (setTrain_frame s t _) (by decide)
  split
  · exact onlyChanges_trans h (tryRelease_frame _ t)
  · exact h

/-! ### The interval boundary -/

theorem expireBlocks_frame (s : State) (n : Nat) : s.onlyChanges (s.expireBlocks n) [.book] := by
  unfold State.expireBlocks; dsimp only; split
  · exact withBook_frame s _
  · exact onlyChanges_refl s _

theorem reclamp_frame (s : State) (b : Band) : s.onlyChanges (s.reclamp b) [.rsv, .gp] := by
  unfold State.reclamp; dsimp only
  have h : s.onlyChanges (s.withRsv { s.rsv with granted := s.band.clamp s.rsv.granted }) [.rsv, .gp] :=
    onlyChanges_mono (withRsv_frame s _) (by decide)
  split
  · exact h
  · exact onlyChanges_trans h (onlyChanges_mono (raise_frame _ .gp _) (by decide))

theorem closeRecord_frame (s : State) : s.onlyChanges s.closeRecord [.slog, .tp] := by
  unfold State.closeRecord; split
  · exact onlyChanges_refl s _
  · exact onlyChanges_trans (onlyChanges_mono (withSlog_frame s _) (by decide))
      (onlyChanges_mono (raise_frame _ .tp _) (by decide))

theorem openRecord_frame (s : State) (b : Bool) : s.onlyChanges (s.openRecord b) [.slog] := by
  unfold State.openRecord; split
  · exact onlyChanges_refl s _
  · exact withSlog_frame s _

/-- What a boundary may change. -/
abbrev boundaryParts : List Part := [.tb, .book, .prj, .rsv, .slog, .tp, .gp]

theorem boundary_frame (s : State) (m : Nat) : s.onlyChanges (s.boundary m) boundaryParts := by
  unfold State.boundary; split
  · exact onlyChanges_refl s _
  · dsimp only
    exact onlyChanges_trans (onlyChanges_mono (withTb_frame s _) (by decide))
      (onlyChanges_trans (onlyChanges_mono (expireBlocks_frame _ _) (by decide))
        (onlyChanges_trans (onlyChanges_mono (reclamp_frame _ _) (by decide))
          (onlyChanges_trans (onlyChanges_mono (closeRecord_frame _) (by decide))
            (onlyChanges_trans (onlyChanges_mono (openRecord_frame _ _) (by decide))
              (onlyChanges_mono (requestReview_frame _) (by decide))))))

/-! ### Metering -/

theorem clampEvent_frame (s : State) (f : RecordFlags → RecordFlags) : s.onlyChanges (s.clampEvent f) [.pp, .slog] :=
  onlyChanges_trans (onlyChanges_mono (raise_frame s .pp .clamp) (by decide))
    (onlyChanges_mono (markRecord_frame _ f) (by decide))

/-- What the totalisers of a METER may change. -/
abbrev totaliserParts : List Part := [.inv, .pp, .slog]

theorem applyMass_frame (s : State) (t : Train) (d : Nat) : s.onlyChanges (s.applyMass t d) totaliserParts := by
  unfold State.applyMass; dsimp only; split
  · have h := onlyChanges_mono (m := totaliserParts) (withInv_frame s
      { s.inv with mass := saturate (decide (t.kind = .compressor)) s.cfg.lastMass s.inv.mass d }) (by decide)
    split
    · exact onlyChanges_trans h (onlyChanges_mono (clampEvent_frame _ _) (by decide))
    · exact h
  · exact onlyChanges_refl s _

theorem applyHeat_frame (s : State) (k : Tier) (b : Bool) (d : Nat) : s.onlyChanges (s.applyHeat k b d) totaliserParts := by
  unfold State.applyHeat; dsimp only; split
  · have h := onlyChanges_mono (m := totaliserParts) (withInv_frame s
      { s.inv with heat := s.inv.heat.set k (saturate b (s.cfg.tiers.get k).capacity (s.inv.heat.get k) d) }) (by decide)
    split
    · exact onlyChanges_trans h (onlyChanges_mono (clampEvent_frame _ _) (by decide))
    · exact h
  · exact onlyChanges_refl s _

theorem workMass_frame (e : Nat) (report : MeterReport) (s : State) (t : Train) :
    s.onlyChanges (State.workMass e report s t) totaliserParts := by
  unfold State.workMass; dsimp only; split
  · have h := onlyChanges_mono (m := totaliserParts) (withInv_frame s
      { s.inv with massBase := s.inv.massBase.set t (some (report.trains.get t).mass) }) (by decide)
    split
    · exact h
    · split
      · exact onlyChanges_trans h (applyMass_frame _ t _)
      · exact onlyChanges_trans h (onlyChanges_mono (clampEvent_frame _ _) (by decide))
  · exact onlyChanges_refl s _

theorem workHeat_frame (e : Nat) (k : Tier) (b : Bool) (base : Option Word) (v : Word) (s : State) :
    s.onlyChanges (s.workHeat e k b base v) totaliserParts := by
  unfold State.workHeat; split
  · exact onlyChanges_refl s _
  · split
    · exact applyHeat_frame s k b _
    · exact onlyChanges_mono (clampEvent_frame _ _) (by decide)

theorem workTier_frame (e : Nat) (report : MeterReport) (s : State) (k : Tier) :
    s.onlyChanges (State.workTier e report s k) totaliserParts := by
  unfold State.workTier; dsimp only
  exact onlyChanges_trans (onlyChanges_mono (withInv_frame s _) (by decide))
    (onlyChanges_trans (workHeat_frame e k true _ _ _)
      (onlyChanges_trans (onlyChanges_mono (withInv_frame _ _) (by decide)) (workHeat_frame e k false _ _ _)))

theorem workTotalisers_frame (s : State) (report : MeterReport) : s.onlyChanges (s.workTotalisers report) totaliserParts :=
  onlyChanges_trans (foldl_frame (workMass_frame _ report) _ _) (foldl_frame (workTier_frame _ report) _ _)

theorem driftTest_frame (s : State) (q : Nat) : s.onlyChanges (s.driftTest q) [.inv, .pp, .tp, .prj] := by
  unfold State.driftTest; split
  · dsimp only
    have h := onlyChanges_mono (m := [.inv, .pp, .tp, .prj]) (withInv_frame s { s.inv with drift := s.nextDrift q }) (by decide)
    split
    · unfold State.becomeDrifted
      exact onlyChanges_trans h (onlyChanges_trans (onlyChanges_mono (withInv_frame _ _) (by decide))
        (onlyChanges_trans (onlyChanges_mono (raise_frame _ .pp _) (by decide))
          (onlyChanges_trans (onlyChanges_mono (raise_frame _ .tp _) (by decide))
            (onlyChanges_mono (requestReview_frame _) (by decide)))))
    · exact h
  · exact onlyChanges_refl s _

theorem recover_frame (s : State) : s.onlyChanges s.recover [.inv, .trc, .tp] := by
  unfold State.recover; split
  · exact onlyChanges_trans (onlyChanges_mono (withInv_frame s _) (by decide))
      (onlyChanges_trans (onlyChanges_mono (withTrc_frame _ _) (by decide))
        (onlyChanges_mono (raise_frame _ .tp _) (by decide)))
  · exact onlyChanges_refl s _

/-- What a METER taken may change. -/
abbrev meterParts : List Part := [.inv, .prj, .trc, .du, .slog, .pp, .tp]

theorem workMeter_frame (s : State) (report : MeterReport) : s.onlyChanges (s.workMeter report) meterParts := by
  unfold State.workMeter; dsimp only
  exact onlyChanges_trans (onlyChanges_mono (workTotalisers_frame s report) (by decide))
    (onlyChanges_trans (onlyChanges_mono (driftTest_frame _ _) (by decide))
      (onlyChanges_trans (onlyChanges_mono (withInv_frame _ _) (by decide))
        (onlyChanges_trans (onlyChanges_mono (takeReports_frame _ report) (by decide))
          (onlyChanges_trans (onlyChanges_mono (withDu_frame _ _) (by decide))
            (onlyChanges_mono (recover_frame _) (by decide))))))

theorem applyLosses_frame (s : State) : s.onlyChanges s.applyLosses [.inv] := by
  unfold State.applyLosses; split
  · exact withInv_frame s _
  · exact onlyChanges_refl s _

theorem becomeStale_frame (s : State) : s.onlyChanges s.becomeStale [.inv, .trc, .tp, .slog] := by
  unfold State.becomeStale
  exact onlyChanges_trans (onlyChanges_mono (withInv_frame s _) (by decide))
    (onlyChanges_trans (onlyChanges_mono (withTrc_frame _ _) (by decide))
      (onlyChanges_trans (onlyChanges_mono (raise_frame _ .tp _) (by decide))
        (onlyChanges_mono (markRecord_frame _ _) (by decide))))

/-! ### Modes and checks -/

theorem setMode_frame (s : State) (m : Mode) : s.onlyChanges (s.setMode m) [.prof, .tp, .gp] :=
  onlyChanges_trans (onlyChanges_mono (withProf_frame s _) (by decide))
    (onlyChanges_trans (onlyChanges_mono (raise_frame _ .tp _) (by decide))
      (onlyChanges_mono (raise_frame _ .gp _) (by decide)))

theorem leaveService_frame (s : State) : s.onlyChanges s.leaveService [.du, .rsv, .prof] :=
  onlyChanges_trans (onlyChanges_mono (withDu_frame s _) (by decide))
    (onlyChanges_trans (onlyChanges_mono (withRsv_frame _ _) (by decide))
      (onlyChanges_mono (withProf_frame _ _) (by decide)))

/-- What a change of mode may change. -/
abbrev modeParts : List Part := [.prj, .trc, .du, .rsv, .prof, .pp, .tp, .gp]

theorem enterFaulted_frame (s : State) : s.onlyChanges s.enterFaulted modeParts :=
  onlyChanges_trans (onlyChanges_mono (setMode_frame s _) (by decide))
    (onlyChanges_trans (onlyChanges_mono (tripActive_frame _ _) (by decide))
      (onlyChanges_mono (leaveService_frame _) (by decide)))

theorem enterService_frame (s : State) : s.onlyChanges s.enterService modeParts := by
  unfold State.enterService; dsimp only
  exact onlyChanges_trans (onlyChanges_mono (setMode_frame s _) (by decide))
    (onlyChanges_trans (onlyChanges_mono (withTrc_frame _ _) (by decide))
      (onlyChanges_trans (onlyChanges_mono (foldl_frame tryRelease_frame _ _) (by decide))
        (onlyChanges_trans (onlyChanges_mono (requestReview_frame _) (by decide))
          (onlyChanges_mono (withProf_frame _ _) (by decide)))))

theorem loadInventory_frame (s : State) (c : Settings) : s.onlyChanges (s.loadInventory c) [.inv, .pp, .slog] := by
  unfold State.loadInventory; dsimp only
  split
  · exact onlyChanges_trans (onlyChanges_mono (withInv_frame s _) (by decide))
      (onlyChanges_trans (onlyChanges_mono (raise_frame _ .pp _) (by decide))
        (onlyChanges_mono (markRecord_frame _ _) (by decide)))
  · exact onlyChanges_mono (withInv_frame s _) (by decide)

theorem applyLength_frame (s : State) (o : Option Nat) : s.onlyChanges (s.applyLength o) boundaryParts := by
  unfold State.applyLength; split
  · exact onlyChanges_refl s _
  · split
    · exact boundary_frame s _
    · exact onlyChanges_refl s _

theorem applyDefaultMode_frame (s : State) (m : CheckMode) : s.onlyChanges (s.applyDefaultMode m) [.prj] := by
  unfold State.applyDefaultMode; split
  · exact onlyChanges_refl s _
  · exact withPrj_frame s _

theorem firstLinkLoad_frame (s : State) (b : Bool) : s.onlyChanges (s.firstLinkLoad b) [.rsv] := by
  unfold State.firstLinkLoad; split
  · exact withRsv_frame s _
  · exact onlyChanges_refl s _

/-- What handing out the values of a passing check may change. -/
abbrev valueParts : List Part := [.inv, .tb, .book, .prj, .trc, .du, .rsv, .slog, .pp, .tp, .gp, .settings]

theorem handValues_frame (s : State) (image : Image) : s.onlyChanges (s.handValues image) valueParts := by
  unfold State.handValues; dsimp only
  exact onlyChanges_trans (onlyChanges_mono (withSettings_frame s _) (by decide))
    (onlyChanges_trans (onlyChanges_mono (loadInventory_frame _ _) (by decide))
      (onlyChanges_trans (onlyChanges_mono (applyLength_frame _ _) (by decide))
        (onlyChanges_trans (onlyChanges_mono (applyDefaultMode_frame _ _) (by decide))
          (onlyChanges_trans (onlyChanges_mono (foldl_frame applyInstalled_frame _ _) (by decide))
            (onlyChanges_trans (onlyChanges_mono (withDu_frame _ _) (by decide))
              (onlyChanges_mono (firstLinkLoad_frame _ _) (by decide)))))))

/-! ### Dispatch -/

theorem applyClamps_frame (s : State) : s.onlyChanges s.applyClamps [.du, .slog, .gp] := by
  unfold State.applyClamps; dsimp only
  split <;> split
  all_goals first
    | exact onlyChanges_trans (onlyChanges_mono (withDu_frame s _) (by decide))
        (onlyChanges_trans (onlyChanges_mono (markRecord_frame _ _) (by decide))
          (onlyChanges_mono (raise_frame _ .gp _) (by decide)))
    | exact onlyChanges_trans (onlyChanges_mono (withDu_frame s _) (by decide))
        (onlyChanges_mono (markRecord_frame _ _) (by decide))
    | exact onlyChanges_trans (onlyChanges_mono (withDu_frame s _) (by decide))
        (onlyChanges_mono (raise_frame _ .gp _) (by decide))
    | exact onlyChanges_mono (withDu_frame s _) (by decide)

theorem allocate_frame (s : State) (k : Kind) : s.onlyChanges (s.allocate k) [.trc, .du] := by
  unfold State.allocate State.decideStart State.decideStop; dsimp only
  repeat' split
  all_goals first
    | exact onlyChanges_refl s _
    | exact onlyChanges_mono (startTrain_frame s _) (by decide)
    | exact stopTrain_frame s _

theorem setSetpoints_frame (s : State) : s.onlyChanges s.setSetpoints [.du, .slog] := by
  unfold State.setSetpoints; dsimp only
  have h := onlyChanges_mono (m := [.du, .slog]) (withDu_frame s { s.du with setpoint := PerTrain.of s.setpointFor }) (by decide)
  split
  · exact onlyChanges_trans h (onlyChanges_mono (markRecord_frame _ _) (by decide))
  · exact h

/-- What a computing tick may change beside the count and the open record's seconds. -/
abbrev computeParts : List Part := [.trc, .du, .slog, .gp]

theorem computeTarget_frame (s : State) : s.onlyChanges s.computeTarget computeParts := by
  unfold State.computeTarget
  exact onlyChanges_trans (onlyChanges_mono (applyClamps_frame s) (by decide))
    (onlyChanges_trans (onlyChanges_mono (withDu_frame _ _) (by decide))
      (onlyChanges_trans (onlyChanges_mono (allocate_frame _ _) (by decide))
        (onlyChanges_trans (onlyChanges_mono (allocate_frame _ _) (by decide))
          (onlyChanges_trans (onlyChanges_mono (withDu_frame _ _) (by decide))
            (onlyChanges_mono (setSetpoints_frame _) (by decide))))))

theorem expireDwell_frame (s : State) : s.onlyChanges s.expireDwell [.du] := by
  unfold State.expireDwell; split
  · exact onlyChanges_refl s _
  · split
    · exact withDu_frame s _
    · exact onlyChanges_refl s _

theorem dispatchPart_frame (s : State) : s.onlyChanges s.dispatchPart computeParts := by
  unfold State.dispatchPart; dsimp only
  refine onlyChanges_trans (onlyChanges_mono (expireDwell_frame s) (by decide)) ?_
  split
  · split
    · exact computeTarget_frame _
    · exact onlyChanges_refl _ _
  · exact onlyChanges_mono (withDu_frame _ _) (by decide)

theorem settlementPart_frame (s : State) : s.onlyChanges s.settlementPart [.slog] := by
  unfold State.settlementPart; split
  · exact onlyChanges_refl s _
  · exact withSlog_frame s _

theorem tickParts_frame (s : State) : s.onlyChanges s.tickParts computeParts :=
  onlyChanges_trans (dispatchPart_frame s) (onlyChanges_mono (settlementPart_frame _) (by decide))

/-! ### Device time and events -/

theorem runClock_frame (s : State) (n : Nat) : s.onlyChanges (s.runClock n) boundaryParts := by
  unfold State.runClock; split
  · exact onlyChanges_refl s _
  · split
    · exact onlyChanges_mono (withTb_frame s _) (by decide)
    · exact boundary_frame s _

theorem runClockUpTo_frame (s : State) (n : Nat) : s.onlyChanges (s.runClockUpTo n) boundaryParts := by
  unfold State.runClockUpTo; split
  · exact onlyChanges_refl _ _
  · split
    · exact onlyChanges_mono (withTb_frame _ _) (by decide)
    · exact boundary_frame _ _

theorem takeReached_frame (s : State) : s.onlyChanges s.takeReached boundaryParts := by
  unfold State.takeReached; split
  · exact onlyChanges_refl _ _
  · split
    · exact boundary_frame _ _
    · exact onlyChanges_refl _ _

theorem passTime_frame (s : State) (n : Nat) : s.onlyChanges (s.passTime n) boundaryParts :=
  onlyChanges_trans (onlyChanges_mono (withTb_frame s _) (by decide)) (runClock_frame _ n)

theorem loseLink_frame (s : State) : s.onlyChanges s.loseLink [.rsv, .slog, .pp, .tp] :=
  onlyChanges_trans (onlyChanges_mono (withRsv_frame s _) (by decide))
    (onlyChanges_trans (onlyChanges_mono (raise_frame _ .pp _) (by decide))
      (onlyChanges_trans (onlyChanges_mono (raise_frame _ .tp _) (by decide))
        (onlyChanges_mono (markRecord_frame _ _) (by decide))))

theorem startCheckOf_frame (s : State) (p : Purpose) : s.onlyChanges (s.startCheckOf p) [.prof] := withProf_frame s _

theorem takeBackground_frame (s : State) : s.onlyChanges s.takeBackground [.prof] := by
  unfold State.takeBackground; dsimp only; split
  · split
    · exact withProf_frame s _
    · exact onlyChanges_trans (withProf_frame s _) (startCheckOf_frame _ _)
  · exact withProf_frame s _

theorem startRanOut_frame (s : State) (t : Train) : s.onlyChanges (s.startRanOut t) trainParts := by
  unfold State.startRanOut; split
  · exact trip_frame s t _
  · exact onlyChanges_mono (setTrain_frame s t _) (by decide)

theorem stopRanOut_frame (s : State) (t : Train) : s.onlyChanges (s.stopRanOut t) trainParts := by
  unfold State.stopRanOut; split
  · exact trip_frame s t _
  · exact onlyChanges_mono (setTrain_frame s t _) (by decide)

theorem cooldownRanOut_frame (s : State) (t : Train) : s.onlyChanges (s.cooldownRanOut t) [.trc, .prj, .pp, .tp] :=
  onlyChanges_trans (onlyChanges_mono (setTrain_frame s t _) (by decide))
    (onlyChanges_trans (onlyChanges_mono (raise_frame _ .pp _) (by decide))
      (onlyChanges_mono (tryRelease_frame _ t) (by decide)))

theorem permitHoldRanOut_frame (s : State) : s.onlyChanges s.permitHoldRanOut trainParts :=
  onlyChanges_trans (onlyChanges_mono (withTrc_frame s _) (by decide)) (tripActive_frame _ _)

/-- The parts of the state that an event may change. -/
def Event.parts : Event → List Part
  | .loss => [.tb, .inv]
  | .stale => [.inv, .trc, .tp, .slog]
  | .minDown _ | .minRun _ | .prune _ => [.trc]
  | .start _ | .stop _ | .permitHold => trainParts
  | .cooldown _ => [.trc, .prj, .pp, .tp]
  | .dwell => [.du]
  | .linkLoss => [.rsv, .slog, .pp, .tp]
  | .activationHold => [.rsv]
  | .background => [.prof]

theorem fire_frame (s : State) (e : Event) : s.onlyChanges (s.fire e) e.parts := by
  cases e with
  | loss =>
    exact onlyChanges_trans (onlyChanges_mono (withTb_frame s _) (m := [.tb, .inv]) (by decide))
      (onlyChanges_mono (applyLosses_frame _) (by decide))
  | stale => exact becomeStale_frame s
  | minDown t => exact setTrain_frame s t _
  | minRun t => exact setTrain_frame s t _
  | start t => exact startRanOut_frame s t
  | stop t => exact stopRanOut_frame s t
  | cooldown t => exact cooldownRanOut_frame s t
  | prune t => exact setTrain_frame s t _
  | permitHold => exact permitHoldRanOut_frame s
  | dwell => exact withDu_frame s _
  | linkLoss => exact loseLink_frame s
  | activationHold => exact withRsv_frame s _
  | background => exact takeBackground_frame s

/-- What the passing of time may change: every block but the settings in force, and nothing of the model's own queue and draws. -/
abbrev timeParts : List Part := [.inv, .tb, .book, .prj, .trc, .du, .rsv, .slog, .prof, .pp, .tp, .gp]

theorem fire_frame_time (s : State) (e : Event) : s.onlyChanges (s.fire e) timeParts :=
  onlyChanges_mono (fire_frame s e) (by cases e <;> dsimp only [Event.parts] <;> decide)

theorem takeDue_frame (s : State) (e : Event) : s.onlyChanges (s.takeDue e) timeParts := by
  unfold State.takeDue; split
  · exact fire_frame_time s e
  · exact onlyChanges_refl s _

theorem finishInstant_frame (s : State) : s.onlyChanges s.finishInstant timeParts := by
  refine onlyChanges_trans ?_ (foldl_frame takeDue_frame _ _)
  split
  · exact onlyChanges_trans (onlyChanges_mono (withTb_frame s _) (by decide)) (onlyChanges_mono (tickParts_frame _) (by decide))
  · exact onlyChanges_refl s _

theorem nextTick_frame (s : State) (b : Bool) : s.onlyChanges (s.nextTick b) timeParts :=
  onlyChanges_trans (finishInstant_frame s)
    (onlyChanges_trans (onlyChanges_mono (passTime_frame _ _) (by decide)) (onlyChanges_mono (withTb_frame _ _) (by decide)))

theorem endSecond_frame (s : State) : s.onlyChanges s.endSecond timeParts :=
  onlyChanges_trans (finishInstant_frame s)
    (onlyChanges_trans (onlyChanges_mono (runClockUpTo_frame _ _) (by decide)) (onlyChanges_mono (withTb_frame _ _) (by decide)))

theorem tickInstant_frame (s : State) : s.onlyChanges s.tickInstant timeParts := by
  unfold State.tickInstant; split
  · exact onlyChanges_mono (withTb_frame s _) (by decide)
  · exact endSecond_frame s

theorem takeTick_frame (s : State) : s.onlyChanges s.takeTick timeParts :=
  onlyChanges_trans (tickInstant_frame s)
    (onlyChanges_trans (onlyChanges_mono (tickParts_frame _) (by decide)) (onlyChanges_mono (takeReached_frame _) (by decide)))

theorem eventInstant_frame {s u : State} {e : Event} (h : s.eventInstant e = some u) : s.onlyChanges u timeParts := by
  have hv := nextTick_frame s true
  unfold State.eventInstant at h
  generalize s.nextTick true = v at h hv
  split at h
  · rw [← Option.some.inj h]; exact onlyChanges_refl s _
  · split at h
    · rw [← Option.some.inj h]; exact hv
    · cases h

theorem atEvent_frame (s : State) (e : Event) : s.onlyChanges (s.atEvent e) timeParts := by
  unfold State.atEvent; split
  · exact onlyChanges_refl s _
  · next u hu => exact onlyChanges_trans (eventInstant_frame hu) (fire_frame_time u e)

theorem reachBoundary_frame (s : State) : s.onlyChanges s.reachBoundary timeParts := by
  unfold State.reachBoundary; dsimp only; split
  · exact onlyChanges_refl s _
  · split
    · exact onlyChanges_trans (finishInstant_frame s) (onlyChanges_mono (passTime_frame _ _) (by decide))
    · exact onlyChanges_refl s _

end Sys2Proof.Machine
end

