-- ==== Sys2Proof/Laws/Ports.lean ====
section
/-! SUPPORT. What taking a frame, counting an error and answering do: the state in which a request acts (`State.taken`), the responses
(`reply_taken`), all that a good frame does (`takeFrame_cases`), and that every request command is one `takeFrame`. -/

namespace Sys2Proof.Machine

@[simp] theorem port_setPort (s : State) (p : Port) (x : PortState) : (s.setPort p x).port p = x := by cases p <;> rfl
@[simp] theorem port_setPort_ne (s : State) (p q : Port) (x : PortState) (h : q ≠ p) :
    (s.setPort p x).port q = s.port q := by
  cases p <;> cases q <;> first | rfl | exact absurd rfl h
@[simp] theorem setPort_setPort (s : State) (p : Port) (x y : PortState) :
    (s.setPort p x).setPort p y = s.setPort p y := by cases p <;> rfl
@[simp] theorem setPort_self (s : State) (p : Port) : s.setPort p (s.port p) = s := by cases p <;> rfl

@[simp] theorem setPort_inv (s : State) (p : Port) (x : PortState) : (s.setPort p x).inv = s.inv := rfl
@[simp] theorem setPort_tb (s : State) (p : Port) (x : PortState) : (s.setPort p x).tb = s.tb := rfl
@[simp] theorem setPort_book (s : State) (p : Port) (x : PortState) : (s.setPort p x).book = s.book := rfl
@[simp] theorem setPort_prj (s : State) (p : Port) (x : PortState) : (s.setPort p x).prj = s.prj := rfl
@[simp] theorem setPort_trc (s : State) (p : Port) (x : PortState) : (s.setPort p x).trc = s.trc := rfl
@[simp] theorem setPort_du (s : State) (p : Port) (x : PortState) : (s.setPort p x).du = s.du := rfl
@[simp] theorem setPort_rsv (s : State) (p : Port) (x : PortState) : (s.setPort p x).rsv = s.rsv := rfl
@[simp] theorem setPort_slog (s : State) (p : Port) (x : PortState) : (s.setPort p x).slog = s.slog := rfl
@[simp] theorem setPort_prof (s : State) (p : Port) (x : PortState) : (s.setPort p x).prof = s.prof := rfl
@[simp] theorem setPort_settings (s : State) (p : Port) (x : PortState) : (s.setPort p x).settings = s.settings := rfl
@[simp] theorem setPort_resetHeld (s : State) (p : Port) (x : PortState) : (s.setPort p x).resetHeld = s.resetHeld := rfl
@[simp] theorem setPort_draws (s : State) (p : Port) (x : PortState) : (s.setPort p x).draws = s.draws := rfl
@[simp] theorem setPort_pending (s : State) (p : Port) (x : PortState) : (s.setPort p x).pending = s.pending := rfl

@[simp] theorem port_withInv (s : State) (x : Inventory) (p : Port) : (s.withInv x).port p = s.port p := rfl
@[simp] theorem port_withTb (s : State) (x : TimeBase) (p : Port) : (s.withTb x).port p = s.port p := rfl
@[simp] theorem port_withBook (s : State) (x : Book) (p : Port) : (s.withBook x).port p = s.port p := rfl
@[simp] theorem port_withPrj (s : State) (x : Engine) (p : Port) : (s.withPrj x).port p = s.port p := rfl
@[simp] theorem port_withTrc (s : State) (x : TrainController) (p : Port) : (s.withTrc x).port p = s.port p := rfl
@[simp] theorem port_withDu (s : State) (x : DispatchUnit) (p : Port) : (s.withDu x).port p = s.port p := rfl
@[simp] theorem port_withRsv (s : State) (x : Reserve) (p : Port) : (s.withRsv x).port p = s.port p := rfl
@[simp] theorem port_withSlog (s : State) (x : SettlementLog) (p : Port) : (s.withSlog x).port p = s.port p := rfl
@[simp] theorem port_withProf (s : State) (x : Profile) (p : Port) : (s.withProf x).port p = s.port p := rfl
@[simp] theorem port_withSettings (s : State) (x : Option Settings) (p : Port) : (s.withSettings x).port p = s.port p := rfl

/-! ### Taking a frame -/

/-- A frame the grid port takes leaves the link as `linkAfterFrame` says (R141, R144). -/
theorem gridFrame_eq (s : State) : s.gridFrame = s.withRsv s.linkAfterFrame := by
  unfold State.gridFrame State.linkAfterFrame State.now
  dsimp only
  generalize s.rsv = r
  cases h : s.settings <;> cases r with
  | mk a l b d e => cases l <;> simp

/-- The state in which a request that is taken acts. -/
def State.taken (s : State) (p : Port) : State :=
  (s.setPort p { s.port p with assembler := .waiting, owed := true }).withRsv (if p = .gp then s.linkAfterFrame else s.rsv)

/-! ### Line errors -/

theorem errorLimit_eq (s : State) :
    s.errorLimit = if s.prof.bad then 16 else (s.settings.map Settings.portErrorLimit).getD 16 := by
  unfold State.errorLimit; cases s.settings <;> simp

/-- One counted error changes its port alone (R182). -/
theorem countError_eq (s : State) (p : Port) : s.countError p = s.setPort p (s.afterError p (s.port p)) := by
  unfold State.afterError
  rw [← errorLimit_eq]
  unfold State.countError; dsimp only
  have e : ∀ x, (s.setPort p x).errorLimit = s.errorLimit := fun _ => rfl
  rw [e]
  by_cases h : s.errorLimit ≤ min 255 ((s.port p).errors + 1)
  · rw [if_pos h, if_pos h]; simp [State.raise]
  · rw [if_neg h, if_neg h]

/-- The port after one counted error (R182). -/
theorem port_countError (s : State) (p : Port) :
    (s.countError p).port p =
      { s.port p with
        errors := min 255 ((s.port p).errors + 1)
        causes :=
          if (if s.prof.bad then 16 else (s.settings.map Settings.portErrorLimit).getD 16) ≤
              min 255 ((s.port p).errors + 1) then
            (s.port p).causes ||| Cause.mask p .linkFault
          else (s.port p).causes } := by
  rw [countError_eq, port_setPort]; rfl

/-! ### Taking a frame: what a whole good frame does -/

/-- In WAITING the break of a good frame discards nothing (R175). -/
theorem takeBreak_waiting {s : State} {p : Port} (h : (s.port p).assembler = .waiting) :
    (s.takeBreak p).setAssembler p .waiting = s := by
  have e : { s.port p with assembler := .waiting } = s.port p := by rw [← h]
  simp [State.takeBreak, h, State.setAssembler, e]

/-- Within a frame it discards and counts the frame in progress (R175). -/
theorem takeBreak_inFrame {s : State} {p : Port} {bytes : List Byte} (h : (s.port p).assembler = .inFrame bytes) :
    (s.takeBreak p).setAssembler p .waiting = s.cutOff p := by
  unfold State.takeBreak; rw [h]
  simp only [State.discard, State.setAssembler, State.cutOff, countError_eq, setPort_setPort, State.afterError, port_setPort]
  rfl

/-- On a free port the frame is taken (R177). -/
theorem takeFrame_free {s : State} {p : Port} (h : s.free p) (act : State → State) : s.takeFrame p act = act (s.taken p) := by
  unfold State.takeFrame State.taken; dsimp only
  have e : { s.port p with assembler := .waiting, owed := true } = { s.port p with owed := true } := by rw [← h.1]
  rw [takeBreak_waiting h.1, h.2, e]
  simp only [Bool.false_eq_true, if_false]
  split
  · rw [gridFrame_eq]; rfl
  · rfl

/-- While a response is owed the frame is discarded and counted (R177 step 1). -/
theorem takeFrame_owed {s : State} {p : Port} (hw : (s.port p).assembler = .waiting) (h : (s.port p).owed = true)
    (act : State → State) : s.takeFrame p act = s.countError p := by
  unfold State.takeFrame; dsimp only
  rw [takeBreak_waiting hw, if_pos h]

/-- The port once the frame in progress has been discarded and counted (R175, R182). -/
theorem port_cutOff (s : State) (p : Port) : (s.cutOff p).port p = s.afterError p { s.port p with assembler := .waiting } := by
  simp [State.cutOff]

theorem cutOff_waiting (s : State) (p : Port) : ((s.cutOff p).port p).assembler = .waiting := by
  rw [port_cutOff]; rfl

/-- A good frame that comes in over a frame in progress acts as in the state in which that one has been discarded and counted (R175). -/
theorem takeFrame_inFrame {s : State} {p : Port} {bytes : List Byte} (h : (s.port p).assembler = .inFrame bytes)
    (act : State → State) : s.takeFrame p act = (s.cutOff p).takeFrame p act := by
  unfold State.takeFrame; dsimp only
  rw [takeBreak_inFrame h, takeBreak_waiting (cutOff_waiting s p)]

/-- All that a good frame does, by what the port was doing (R175, R177). -/
theorem takeFrame_cases (s : State) (p : Port) (act : State → State) :
    ∃ u, (u = s ∨ u = s.cutOff p) ∧ (u.port p).assembler = .waiting ∧
      (((u.port p).owed = true ∧ s.takeFrame p act = u.countError p) ∨ (u.free p ∧ s.takeFrame p act = act (u.taken p))) := by
  have main : ∀ u : State, (u.port p).assembler = .waiting →
      ((u.port p).owed = true ∧ u.takeFrame p act = u.countError p) ∨ (u.free p ∧ u.takeFrame p act = act (u.taken p)) := by
    intro u hw
    cases g : (u.port p).owed
    · exact .inr ⟨⟨hw, g⟩, takeFrame_free ⟨hw, g⟩ act⟩
    · exact .inl ⟨rfl, takeFrame_owed hw g act⟩
  cases h : (s.port p).assembler with
  | waiting => exact ⟨s, .inl rfl, h, main s h⟩
  | inFrame bytes =>
    rw [takeFrame_inFrame h]
    exact ⟨s.cutOff p, .inr rfl, cutOff_waiting s p, main _ (cutOff_waiting s p)⟩

@[simp] theorem port_taken (s : State) (p : Port) :
    (s.taken p).port p = { s.port p with assembler := .waiting, owed := true } := by simp [State.taken]
@[simp] theorem port_taken_ne (s : State) (p q : Port) (h : q ≠ p) : (s.taken p).port q = s.port q := by simp [State.taken, h]
@[simp] theorem taken_inv (s : State) (p : Port) : (s.taken p).inv = s.inv := rfl
@[simp] theorem taken_tb (s : State) (p : Port) : (s.taken p).tb = s.tb := rfl
@[simp] theorem taken_book (s : State) (p : Port) : (s.taken p).book = s.book := rfl
@[simp] theorem taken_prj (s : State) (p : Port) : (s.taken p).prj = s.prj := rfl
@[simp] theorem taken_trc (s : State) (p : Port) : (s.taken p).trc = s.trc := rfl
@[simp] theorem taken_du (s : State) (p : Port) : (s.taken p).du = s.du := rfl
@[simp] theorem taken_slog (s : State) (p : Port) : (s.taken p).slog = s.slog := rfl
@[simp] theorem taken_prof (s : State) (p : Port) : (s.taken p).prof = s.prof := rfl
@[simp] theorem taken_settings (s : State) (p : Port) : (s.taken p).settings = s.settings := rfl
@[simp] theorem taken_resetHeld (s : State) (p : Port) : (s.taken p).resetHeld = s.resetHeld := rfl
@[simp] theorem taken_pending (s : State) (p : Port) : (s.taken p).pending = s.pending := rfl
theorem taken_rsv (s : State) (p : Port) : (s.taken p).rsv = if p = .gp then s.linkAfterFrame else s.rsv := rfl
@[simp] theorem taken_train (s : State) (p : Port) (x : Train) : (s.taken p).train x = s.train x := rfl
@[simp] theorem taken_cfg (s : State) (p : Port) : (s.taken p).cfg = s.cfg := rfl
@[simp] theorem taken_now (s : State) (p : Port) : (s.taken p).now = s.now := rfl

theorem portPart_mem (p : Port) : ∀ x ∈ [portPart p], x ∈ frameParts p := by cases p <;> decide

theorem taken_frame (s : State) (p : Port) : s.onlyChanges (s.taken p) (frameParts p) := by
  cases p
  · exact onlyChanges_mono (setPort_frame s .pp _) (by decide)
  · exact onlyChanges_mono (setPort_frame s .tp _) (by decide)
  · exact onlyChanges_trans (onlyChanges_mono (setPort_frame s .gp _) (by decide))
      (onlyChanges_mono (withRsv_frame _ _) (by decide))

/-- Every request is one frame taken on its port. -/
theorem request_takes (s : State) (c : Instr) {p : Port} {kind : Byte} {payload : List Byte}
    (hr : requestOf c = some (p, kind, payload)) (hw : c.wellFormed = true) :
    ∃ act, exec c s = .next (s.takeFrame p act) := by
  cases c
  case declareAvailable a b d =>
    cases hr
    show ∃ act, execDeclareAvailable a b d s = _
    unfold execDeclareAvailable
    rw [if_pos hw]
    exact ⟨_, rfl⟩
  all_goals first
    | (cases hr; exact ⟨_, rfl⟩)
    | (cases hr)

/-! ### Answering -/

theorem statusByte_congr {s t : State} {p : Port} (h1 : (t.port p).resetSeen = (s.port p).resetSeen)
    (h2 : (t.port p).causes = (s.port p).causes) (h3 : (t.port p).enables = (s.port p).enables) (h4 : t.prj = s.prj)
    (h5 : t.prof.mode = s.prof.mode) (h6 : t.inv = s.inv) : t.statusByte p = s.statusByte p := by
  have he : t.enablesInForce p = s.enablesInForce p := by unfold State.enablesInForce; rw [h4, h3]
  unfold State.statusByte State.attention State.engineBusy
  rw [h1, h2, he, h4, h5, h6]

@[simp] theorem statusByte_taken (s : State) (p : Port) : (s.taken p).statusByte p = s.statusByte p := by
  apply statusByte_congr <;> simp

/-- The port after a response is built on it (R179 to R181). -/
theorem port_respond (s : State) (p : Port) (k : Byte) (r : Result) (f : List Byte) :
    (s.respond p k r f).port p =
      { s.port p with
        output := (s.port p).output ++ [Frame.make (k + 0x80#8) (s.statusByte p :: r.code :: f)]
        resetSeen := false } := by
  simp [State.respond, State.answer]

/-- A response built in a state whose port is as the taken frame left it, but for its causes. -/
theorem replied_respond {s u : State} {p : Port} (k : Byte) (r : Result) (f : List Byte)
    (h : u.port p = { s.port p with assembler := .waiting, owed := true, causes := (u.port p).causes }) :
    s.replied (u.respond p k r f) p k r f := by
  have hs : s.shownStatus (u.respond p k r f) p = u.statusByte p := by
    unfold State.shownStatus
    apply statusByte_congr
    · rw [port_setPort, h]
    · simp [State.respond, State.answer]
    · simp [State.respond, State.answer]
    · rfl
    · rfl
    · rfl
  unfold State.replied
  rw [hs, port_respond, h]

/-- A plain response to a request that changed nothing else. -/
theorem reply_taken (s : State) (p : Port) (k : Byte) (r : Result) (f : List Byte) :
    s.repliedPlain ((s.taken p).respond p k r f) p k r f :=
  ⟨replied_respond k r f (by simp), by rw [port_respond]; simp⟩

theorem reply_taken_frame (s : State) (p : Port) (k : Byte) (r : Result) (f : List Byte) :
    s.onlyChanges ((s.taken p).respond p k r f) (frameParts p) :=
  onlyChanges_trans (taken_frame s p) (onlyChanges_mono (respond_frame _ p k r f) (portPart_mem p))

/-! ### Raising a cause -/

/-- A cause raised on a port shows in its flags (R184). -/
theorem port_raise (s : State) (p : Port) (c : Cause) :
    (s.raise p c).port p = { s.port p with causes := (s.port p).causes ||| c.mask p } := by
  simp [State.raise]

@[simp] theorem port_raise_ne (s : State) (p q : Port) (c : Cause) (h : q ≠ p) : (s.raise p c).port q = s.port q := by
  simp [State.raise, h]

/-! ### The transmit line (R174, R179) -/

@[simp] theorem sentLine_nil : sentLine [] = [] := rfl

@[simp] theorem sentLine_cons (f : Frame) (rest : List Frame) : sentLine (f :: rest) = f.line ++ sentLine rest := rfl

/-- A frame handed to a queue is sent after all that the queue holds (R179). -/
theorem sentLine_append (a b : List Frame) : sentLine (a ++ b) = sentLine a ++ sentLine b := by simp [sentLine]

/-- Each frame on a line begins with its break (R174). -/
theorem frame_line_eq (f : Frame) : f.line = .brk :: (f.kind :: f.length :: (f.payload ++ [f.crc])).map .byte := rfl

end Sys2Proof.Machine
end

