-- ==== Sys2Proof/Laws/Effects.lean ====
section
/-! SUPPORT. What each shared operation does, said once: values per train and per tier, events at a tick, review requests, trips,
releases, and where an untouched block stays equal. -/

namespace Sys2Proof

theorem PerTrain.get_set_self {α : Type} (v : PerTrain α) (t : Train) (x : α) : (v.set t x).get t = x := by cases t <;> rfl
theorem PerTrain.get_set_ne {α : Type} (v : PerTrain α) {t u : Train} (x : α) (h : u ≠ t) : (v.set t x).get u = v.get u := by
  cases t <;> cases u <;> first | rfl | exact absurd rfl h
theorem PerTrain.get_of {α : Type} (f : Train → α) (t : Train) : (PerTrain.of f).get t = f t := by cases t <;> rfl
theorem PerTrain.ext_get {α : Type} {v w : PerTrain α} (h : ∀ t, v.get t = w.get t) : v = w := by
  cases v; cases w
  have h1 := h .c1; have h2 := h .c2; have h3 := h .c3; have h4 := h .c4
  have h5 := h .e1; have h6 := h .e2; have h7 := h .e3
  simp only [PerTrain.get] at h1 h2 h3 h4 h5 h6 h7
  subst h1 h2 h3 h4 h5 h6 h7; rfl
theorem PerTrain.set_set {α : Type} (v : PerTrain α) (t : Train) (x y : α) : (v.set t x).set t y = v.set t y := by
  cases t <;> rfl
theorem PerTrain.set_get {α : Type} (v : PerTrain α) (t : Train) : v.set t (v.get t) = v := by cases t <;> rfl
theorem PerTier.get_set_self {α : Type} (v : PerTier α) (k : Tier) (x : α) : (v.set k x).get k = x := by cases k <;> rfl
theorem PerTier.get_set_ne {α : Type} (v : PerTier α) {k l : Tier} (x : α) (h : l ≠ k) : (v.set k x).get l = v.get l := by
  cases k <;> cases l <;> first | rfl | exact absurd rfl h
theorem PerTier.get_of {α : Type} (f : Tier → α) (k : Tier) : (PerTier.of f).get k = f k := by cases k <;> rfl

/-- Every train is in the list of all trains, once. -/
theorem Train.mem_all (t : Train) : t ∈ Train.all := by cases t <;> decide
theorem Train.nodup_all : Train.all.Nodup := by decide
theorem Tier.mem_all (k : Tier) : k ∈ Tier.all := by cases k <;> decide
/-- A kind's trains are exactly the trains of that kind. -/
theorem Machine.Kind.mem_trains (k : Machine.Kind) (t : Train) : t ∈ k.trains ↔ t.kind = k := by
  cases k <;> cases t <;> decide

namespace Machine

/-! ### Trains -/

theorem train_setTrain_self (s : State) (t : Train) (r : TrainRecord) : (s.setTrain t r).train t = r := PerTrain.get_set_self _ _ _
theorem train_setTrain_ne (s : State) {t u : Train} (r : TrainRecord) (h : u ≠ t) : (s.setTrain t r).train u = s.train u :=
  PerTrain.get_set_ne _ _ h
/-- A record depends on the Train Controller alone. -/
theorem train_congr {s t : State} (h : t.trc = s.trc) (x : Train) : t.train x = s.train x := by unfold State.train; rw [h]
theorem cfg_congr {s t : State} (h : t.settings = s.settings) : t.cfg = s.cfg := by unfold State.cfg; rw [h]
theorem permit_eq (s : State) (x : Train) :
    s.permit x = (decide (s.prof.mode = .service) && (s.train x).state.active) := rfl

/-! ### Events at a tick (R38, R89) -/

/-- The instants at which an event can be taken are the state's own and the opening of the next tick. -/
theorem eventInstant_iff (s : State) (e : Event) (u : State) : s.eventInstant e = some u ↔ s.takenAt e u := by
  unfold State.eventInstant State.takenAt
  generalize s.nextTick true = v
  by_cases h : s.isDue e = true
  · rw [if_pos h, Option.some.injEq]
    exact ⟨fun x => .inl ⟨h, x.symm⟩, fun x => x.elim (fun y => y.2.symm) fun y => absurd (h.symm.trans y.1) (by decide)⟩
  · rw [if_neg h]
    have h' : s.isDue e = false := by simpa using h
    split
    · next g =>
      have g' := (Bool.and_eq_true _ _).mp g
      rw [Option.some.injEq]
      constructor
      · rintro rfl; exact .inr ⟨h', by simpa using g'.1, rfl, g'.2⟩
      · rintro (y | y)
        · exact absurd y.1 h
        · exact y.2.2.1.symm
    · next g =>
      constructor
      · intro x; cases x
      · rintro (y | ⟨-, y1, rfl, y2⟩)
        · exact absurd y.1 h
        · rw [y1, y2] at g; exact absurd rfl g

/-- An event that can be taken has its effect where it is taken. -/
theorem atEvent_taken {s u : State} {e : Event} (h : s.takenAt e u) : s.atEvent e = u.fire e := by
  unfold State.atEvent; rw [(eventInstant_iff s e u).mpr h]

/-- An event that cannot be taken changes nothing. -/
theorem atEvent_none {s : State} {e : Event} (h : ∀ u, ¬ s.takenAt e u) : s.atEvent e = s := by
  unfold State.atEvent
  cases hi : s.eventInstant e with
  | none => rfl
  | some u => exact absurd ((eventInstant_iff s e u).mp hi) (h u)

/-- An event is taken where its due time has come. -/
theorem takenAt_due {s u : State} {e : Event} (h : s.takenAt e u) : ∃ due, u.dueAt e = some due ∧ due ≤ u.now := by
  have hd : u.isDue e = true := by
    rcases h with ⟨a, rfl⟩ | ⟨_, _, _, d⟩
    · exact a
    · exact d
  unfold State.isDue at hd
  split at hd
  · cases hd
  · next due hdue => exact ⟨due, hdue, of_decide_eq_true hd⟩

/-- A settled instant is complete. -/
theorem finishInstant_settled {s : State} (h : s.settled) : s.finishInstant = s := by
  unfold State.finishInstant
  rw [if_neg (by simp [h.1])]
  suffices ∀ l : List Event, l.foldl State.takeDue s = s from this _
  intro l
  induction l with
  | nil => rfl
  | cons e l ih => rw [List.foldl_cons, State.takeDue, h.2 e]; exact ih

/-! ### Review requests (R68, R70) -/

theorem canReview_eq (s : State) :
    s.canReview = (s.prj.running.isNone && s.inv.status.anchored && s.tb.clock.isSome) := rfl

theorem requestReview_prj (s : State) :
    s.requestReview.prj =
      match s.prj.running, s.inv.status.anchored, s.tb.clock with
      | none, true, some c => { s.prj with running := some (.review (s.snapshot c)), pendingReview := false }
      | _, _, _ => { s.prj with pendingReview := true } := by
  unfold State.requestReview State.startReview
  rw [canReview_eq]
  cases h1 : s.prj.running <;> cases h2 : s.inv.status.anchored <;> cases h3 : s.tb.clock <;> simp [h1]

/-- A snapshot depends on the inventory, the book, the trains and the settings. -/
theorem snapshot_congr {s t : State} (h1 : t.inv = s.inv) (h2 : t.trc = s.trc) (h3 : t.book = s.book)
    (h4 : t.settings = s.settings) (c : Clock) : t.snapshot c = s.snapshot c := by
  unfold State.snapshot State.train State.cfg; rw [h1, h2, h3, h4]

/-- After a review request, whatever follows that keeps the blocks a snapshot shows. -/
theorem reviewRequested_of {s u t : State} (h0 : u.prj = s.prj) (h1 : t.prj = u.requestReview.prj) (h2 : t.inv = u.inv)
    (h3 : t.trc = u.trc) (h4 : t.book = u.book) (h5 : t.settings = u.settings) (h6 : t.tb = u.tb) : s.reviewRequested t := by
  unfold State.reviewRequested
  rw [h1, requestReview_prj, h0, h2, h6]
  cases s.prj.running <;> cases u.inv.status.anchored <;> cases hc : u.tb.clock <;>
    simp [snapshot_congr h2 h3 h4 h5]

/-- The engine shows whether it is busy: a review request never leaves a running job behind. -/
theorem requestReview_keeps (s : State) (h : s.prj.running.isSome) : s.requestReview.prj = { s.prj with pendingReview := true } := by
  rw [requestReview_prj]; cases hr : s.prj.running
  · simp [hr] at h
  · rfl

/-! ### Availability, trips, releases (R104, R107, R111) -/

/-- The generation moves on, CAPACITY is raised and a review is requested; nothing else. -/
theorem changeAvailability_trc (s : State) : s.changeAvailability.trc = { s.trc with generation := s.trc.generation + 1 } :=
  requestReview_frame _ .trc (by decide)

theorem changeAvailability_port (s : State) (p : Port) :
    s.changeAvailability.port p = (s.raise .tp .capacity).port p := by
  cases p <;>
  · unfold State.changeAvailability
    first
      | exact requestReview_frame _ .pp (by decide)
      | exact requestReview_frame _ .tp (by decide)
      | exact requestReview_frame _ .gp (by decide)

theorem changeAvailability_review {s : State} : s.reviewRequested s.changeAvailability :=
  reviewRequested_of (u := (s.withTrc { s.trc with generation := s.trc.generation + 1 }).raise .tp .capacity) rfl rfl
    (requestReview_frame _ .inv (by decide)) (requestReview_frame _ .trc (by decide)) (requestReview_frame _ .book (by decide))
    (requestReview_frame _ .settings (by decide)) (requestReview_frame _ .tb (by decide))

/-- Some train of a kind is active exactly where a train of that kind is. -/
theorem anyActive_iff (s : State) (k : Kind) : s.anyActive k = true ↔ ∃ x : Train, x.kind = k ∧ (s.train x).state.active = true := by
  unfold State.anyActive; rw [List.any_eq_true]
  exact ⟨fun ⟨x, hx, h⟩ => ⟨x, (k.mem_trains x).mp hx, h⟩, fun ⟨x, hx, h⟩ => ⟨x, (k.mem_trains x).mpr hx, h⟩⟩

theorem leftActive_du (s : State) (k : Kind) :
    (s.leftActive k).du =
      if 0 < s.cfg.dwell && !s.anyActive k then { s.du with dwell := some (s.now + s.cfg.dwell), dwellKind := some k }
      else s.du := by
  unfold State.leftActive; split <;> rfl

/-- The state of a trip before the Dispatch Unit is told of it. -/
def State.tripped (s : State) (t : Train) (reason : TripReason) : State :=
  (((s.setTrain t { (s.train t).leave with state := .tripped, reason := some reason }).setSetpoint t 0).raise .pp
    .trip).changeAvailability

theorem trip_eq (s : State) (t : Train) (reason : TripReason) :
    s.trip t reason = if (s.train t).state.active then (s.tripped t reason).leftActive t.kind else s.tripped t reason := rfl

theorem tripped_trc (s : State) (t : Train) (reason : TripReason) :
    (s.tripped t reason).trc =
      { s.trc with
        records := s.trc.records.set t { (s.train t).leave with state := .tripped, reason := some reason }
        generation := s.trc.generation + 1 } := by
  unfold State.tripped; rw [changeAvailability_trc]; rfl

theorem trip_trc (s : State) (t : Train) (reason : TripReason) :
    (s.trip t reason).trc =
      { s.trc with
        records := s.trc.records.set t { (s.train t).leave with state := .tripped, reason := some reason }
        generation := s.trc.generation + 1 } := by
  rw [trip_eq]; split
  · rw [← tripped_trc]; exact leftActive_frame _ _ .trc (by decide)
  · exact tripped_trc s t reason

theorem tripped_du (s : State) (t : Train) (reason : TripReason) :
    (s.tripped t reason).du = { s.du with setpoint := s.du.setpoint.set t 0 } :=
  changeAvailability_frame _ .du (by decide)

theorem tripped_settings (s : State) (t : Train) (reason : TripReason) : (s.tripped t reason).settings = s.settings :=
  changeAvailability_frame _ .settings (by decide)

theorem tripped_now (s : State) (t : Train) (reason : TripReason) : (s.tripped t reason).now = s.now :=
  congrArg (fun b : TimeBase => b.count.toNat) (changeAvailability_frame _ .tb (by decide))

theorem train_tripped_self (s : State) (t : Train) (reason : TripReason) :
    (s.tripped t reason).train t = { (s.train t).leave with state := .tripped, reason := some reason } := by
  unfold State.train; rw [tripped_trc]; exact PerTrain.get_set_self _ _ _

theorem train_tripped_ne (s : State) {t x : Train} (reason : TripReason) (h : x ≠ t) :
    (s.tripped t reason).train x = s.train x := by
  unfold State.train; rw [tripped_trc]; exact PerTrain.get_set_ne _ _ h

theorem anyActive_tripped (s : State) (t : Train) (reason : TripReason) :
    (s.tripped t reason).anyActive t.kind = false ↔ s.lastActive t := by
  rw [← Bool.not_eq_true, anyActive_iff]
  constructor
  · intro h y hy hne
    by_contra hc
    refine h ⟨y, hy, ?_⟩
    rw [train_tripped_ne s reason hne]; simpa using hc
  · rintro h ⟨x, hx, ha⟩
    by_cases hxt : x = t
    · subst hxt; rw [train_tripped_self] at ha; exact absurd ha (by simp [TrainState.active])
    · rw [train_tripped_ne s reason hxt, h x hx hxt] at ha; exact absurd ha (by simp)

theorem trip_du (s : State) (t : Train) (reason : TripReason) :
    (s.trip t reason).du =
      if (s.train t).state.active && decide (0 < s.cfg.dwell) && !(s.tripped t reason).anyActive t.kind then
        { s.du with
          setpoint := s.du.setpoint.set t 0, dwell := some (s.now + s.cfg.dwell), dwellKind := some t.kind }
      else { s.du with setpoint := s.du.setpoint.set t 0 } := by
  rw [trip_eq]
  by_cases ha : (s.train t).state.active = true
  · rw [if_pos ha, leftActive_du, tripped_du, tripped_now, cfg_congr (tripped_settings s t reason), ha, Bool.true_and]
  · rw [if_neg ha, tripped_du, if_neg (by simp [ha])]

/-- Everything a trip does (R104, R111, R122, R128). -/
theorem trip_trips (s : State) (t : Train) (reason : TripReason) : s.Trips (s.trip t reason) t reason := by
  have hself : (s.trip t reason).train t = { (s.train t).leave with state := .tripped, reason := some reason } := by
    unfold State.train; rw [trip_trc]; exact PerTrain.get_set_self _ _ _
  have hport : ∀ p, (s.trip t reason).port p = (s.tripped t reason).port p := by
    intro p; rw [trip_eq]; split
    · cases p
      · exact leftActive_frame _ _ .pp (by decide)
      · exact leftActive_frame _ _ .tp (by decide)
      · exact leftActive_frame _ _ .gp (by decide)
    · rfl
  refine
    { record := hself
      others := fun y hy => ?_
      permit := ?_
      generation := by rw [trip_trc]
      permitHold := by rw [trip_trc]
      loadsDwell := fun h1 h2 h3 => by
        rw [trip_du, h1, (anyActive_tripped s t reason).mpr h2]; simp [h3]
      keepsDwell := fun h => ?_
      plant := ?_
      trade := ?_
      review := ?_
      frame := trip_frame s t reason }
  · unfold State.train; rw [trip_trc]; exact PerTrain.get_set_ne _ _ hy
  · rw [permit_eq, hself]; simp [TrainState.active]
  · rw [trip_du]
    rcases h with h | h | h
    · simp [h]
    · have : (s.tripped t reason).anyActive t.kind = true := by
        by_contra hc; exact h ((anyActive_tripped s t reason).mp (by simpa using hc))
      simp [this]
    · simp [h]
  · unfold State.raisedOnly; rw [hport, State.tripped, changeAvailability_port]; rfl
  · unfold State.raisedOnly; rw [hport, State.tripped, changeAvailability_port]; rfl
  · have key : s.reviewRequested (s.tripped t reason) := by
      have h := changeAvailability_review
        (s := ((s.setTrain t { (s.train t).leave with state := .tripped, reason := some reason }).setSetpoint t 0).raise .pp .trip)
      exact h
    rw [trip_eq]; split
    · unfold State.reviewRequested at key ⊢
      have e : ∀ q, q ≠ .du → (s.tripped t reason).same ((s.tripped t reason).leftActive t.kind) q :=
        fun q hq => leftActive_frame _ _ q (by simpa using hq)
      have h1 : ((s.tripped t reason).leftActive t.kind).inv = _ := e .inv (by decide)
      have h2 : ((s.tripped t reason).leftActive t.kind).tb = _ := e .tb (by decide)
      have h3 : ((s.tripped t reason).leftActive t.kind).prj = _ := e .prj (by decide)
      have h4 : ∀ c, ((s.tripped t reason).leftActive t.kind).snapshot c = (s.tripped t reason).snapshot c :=
        snapshot_congr h1 (e .trc (by decide)) (e .book (by decide)) (e .settings (by decide))
      rw [h1, h2, h3, key]; simp only [h4]
    · exact key

end Machine

end Sys2Proof
end

