-- ==== Sys2Proof/Laws/Events.lean ====
section
/-! SUPPORT. The frame of every command: `exec_frame` says which parts of the state each may change, through `partsOf`. -/

namespace Sys2Proof.Machine

/-- The parts of the state that a command may change. -/
def partsOf : Instr → List Part
  | .powerOnReset _ | .pinReset _ _ =>
    [.inv, .tb, .book, .prj, .trc, .du, .rsv, .slog, .prof, .pp, .tp, .gp, .settings, .resetHeld, .draws]
  | .frameDiscard p _ | .unknownKind p _ | .badLength p _ _ | .responseSent p | .status p | .causes p | .enables p _
  | .clearLink p => frameParts p
  | .meter _ => meterParts
  | .anchor _ _ => [.inv, .prj, .pp, .tp]
  | .declareAvailable _ _ _ | .declareOffline _ | .release _ => [.trc, .prj, .pp, .tp]
  | .trainRead _ | .profileRead _ _ => [.pp]
  | .profileWrite _ _ | .profileStore | .profileLoad | .profileCheck | .enterService | .profileStoreCompletion => [.prof, .pp]
  | .profileMemoryFault _ _ => [.prof]
  | .enterMaintenance => [.du, .rsv, .prof, .pp, .tp, .gp]
  | .profileCheckCompletion => [.inv, .tb, .book, .prj, .trc, .du, .rsv, .slog, .prof, .pp, .tp, .gp, .settings]
  | .clockSet _ _ => [.tb, .slog, .prj, .tp]
  | .clockTrim _ => boundaryParts
  | .submit _ | .abandon | .checkMode _ => [.prj, .tp]
  | .withdraw _ => [.book, .prj, .tp]
  | .bookRead _ | .position | .recordRead _ => [.tp]
  | .activate _ | .poll => [.rsv, .gp]
  | .dispatchTick | .intervalBoundary | .lossTick | .staleOnset | .minDownExpiry _ | .minRunExpiry _ | .startHistoryPrune _
  | .startTimerExpiry _ | .stopTimerExpiry _ | .permitHoldExpiry | .cooldownExpiry _ | .dwellExpiry | .gridLinkLoss
  | .activationHoldExpiry | .backgroundCheck => timeParts
  | .tripFallingEdge _ => trainParts
  | .tripRisingEdge _ => [.trc, .tp, .prj]
  | .checkCompletion | .reviewCompletion => [.book, .prj, .pp, .tp]

/-- The frame of a request: the frame of what it does, with its port and on the grid port the link. -/
theorem takeFrame_frame {p : Port} {act : State → State} {l : List Part} (h : ∀ u : State, u.onlyChanges (act u) l)
    (hl : ∀ x ∈ frameParts p, x ∈ l) (s : State) : s.onlyChanges (s.takeFrame p act) l := by
  obtain ⟨u, hu, -, g⟩ := takeFrame_cases s p act
  have port : ∀ x ∈ [portPart p], x ∈ l := fun x hx => hl x (portPart_mem p x hx)
  have f : s.onlyChanges u l := by
    rcases hu with rfl | rfl
    · exact onlyChanges_refl _ _
    · exact onlyChanges_mono (setPort_frame s p _) port
  rcases g with ⟨-, e⟩ | ⟨-, e⟩
  · rw [e]
    exact onlyChanges_trans f (onlyChanges_mono (countError_frame u p) port)
  · rw [e]
    exact onlyChanges_trans f (onlyChanges_trans (onlyChanges_mono (taken_frame u p) hl) (h _))

/-- A response after an effect that keeps a frame with the port in it. -/
theorem respond_frame_of {s u : State} {p : Port} {l : List Part} (h : s.onlyChanges u l) (hp : portPart p ∈ l) (k : Byte) (r : Result)
    (f : List Byte) : s.onlyChanges (u.respond p k r f) l :=
  onlyChanges_trans h (onlyChanges_mono (respond_frame u p k r f) (by simpa using hp))

theorem checkPassed_frame (s : State) (p : Purpose) (image : Image) :
    s.onlyChanges (s.checkPassed p image) [.inv, .tb, .book, .prj, .trc, .du, .rsv, .slog, .prof, .pp, .tp, .gp, .settings] := by
  unfold State.checkPassed; dsimp only
  generalize hu : s.withProf _ = u
  have h1 : s.onlyChanges u [.prof] := hu ▸ withProf_frame s _
  refine onlyChanges_trans (onlyChanges_mono h1 (by decide))
    (onlyChanges_trans (t := u.handValues image) (onlyChanges_mono (handValues_frame _ _) (by decide)) ?_)
  generalize u.handValues image = v
  refine onlyChanges_trans (t := v.modeAfterPass p) ?_ (onlyChanges_mono (raise_frame _ .pp _) (by decide))
  unfold State.modeAfterPass; split
  · exact onlyChanges_mono (setMode_frame _ _) (by decide)
  · exact onlyChanges_mono (enterService_frame _) (by decide)
  · exact onlyChanges_refl _ _

theorem checkFailed_frame (s : State) (p : Purpose) (field : Nat) : s.onlyChanges (s.checkFailed p field) modeParts := by
  unfold State.checkFailed; dsimp only
  generalize hu : s.withProf _ = u
  have h1 : s.onlyChanges u [.prof] := hu ▸ withProf_frame s _
  refine onlyChanges_trans (onlyChanges_mono h1 (by decide)) (onlyChanges_trans (t := u.modeAfterFail p) ?_ (onlyChanges_mono (raise_frame _ .pp _) (by decide)))
  unfold State.modeAfterFail; split
  · exact onlyChanges_mono (setMode_frame _ _) (by decide)
  · exact enterFaulted_frame _
  · exact onlyChanges_refl _ _

theorem discard_frame (s : State) (p : Port) (a : Assembler) : s.onlyChanges (s.discard p a) [portPart p] :=
  onlyChanges_trans (setPort_frame s p _) (countError_frame _ p)

theorem takeBreak_frame (s : State) (p : Port) : s.onlyChanges (s.takeBreak p) [portPart p] := by
  unfold State.takeBreak; split
  · exact setPort_frame s p _
  · exact discard_frame s p _

theorem takeLine_frame (p : Port) (s : State) (e : LineEvent) : s.onlyChanges (s.takeLine p e) [portPart p] := by
  unfold State.takeLine; split
  all_goals first
    | exact takeBreak_frame s p
    | exact onlyChanges_refl s _
    | exact discard_frame s p _
    | (split <;> first
        | exact onlyChanges_refl s _
        | exact discard_frame s p _
        | exact setPort_frame s p _
        | (split <;> first | exact setPort_frame s p _ | exact discard_frame s p _))

/-- The frame of a next state that is named. -/
theorem frameOfNext {s u t : State} {l : List Part} (f : s.onlyChanges u l)
    (h : (Host.Outcome.next u : Host.Outcome State Fault Refusal) = .next t) : s.onlyChanges t l :=
  Host.Outcome.next.inj h ▸ f

/-- A command that answers a next state has changed only the parts listed for it. -/
theorem exec_frame (c : Instr) (s t : State) (h : exec c s = .next t) : s.onlyChanges t (partsOf c) := by
  have R : ∀ {p : Port} {l : List Part} (u : State) (k : Byte) (r : Result) (f : List Byte), portPart p ∈ l → u.onlyChanges (u.respond p k r f) l :=
    fun u k r f hp => respond_frame_of (onlyChanges_refl u _) hp k r f
  have portIn : ∀ p, portPart p ∈ frameParts p := fun p => portPart_mem p _ (by simp)
  cases c with
  | powerOnReset a => cases h; dsimp only [partsOf]; intro x hx; cases x <;> first | rfl | exact absurd (by decide) hx
  | pinReset a b =>
    cases h; dsimp only [partsOf]; split
    · intro x hx; cases x <;> first | rfl | exact absurd (by decide) hx
    · exact onlyChanges_refl _ _
  | frameDiscard p w =>
    cases h; exact onlyChanges_mono (foldl_frame (takeLine_frame p) _ s) (portPart_mem p)
  | unknownKind p k =>
    cases h; dsimp only [partsOf]; split
    · exact takeFrame_frame (fun u => onlyChanges_mono (answer_frame u p _ _ _) (portPart_mem p)) (fun _ => id) s
    · exact onlyChanges_refl _ _
  | badLength p k n =>
    cases h; dsimp only [partsOf]; split
    · exact takeFrame_frame (fun u => onlyChanges_mono (onlyChanges_trans (countError_frame u p) (respond_frame _ p _ _ _)) (portPart_mem p)) (fun _ => id) s
    · exact onlyChanges_refl _ _
  | responseSent p =>
    cases h; dsimp only [partsOf]; split
    · exact onlyChanges_mono (setPort_frame s p _) (portPart_mem p)
    · exact onlyChanges_refl _ _
  | status p => cases h; dsimp only [partsOf]; exact takeFrame_frame (fun u => R u _ _ _ (portIn p)) (fun _ => id) s
  | causes p => cases h; dsimp only [partsOf]; exact takeFrame_frame (fun u => onlyChanges_trans (R u _ _ _ (portIn p)) (onlyChanges_mono (setPort_frame _ p _) (portPart_mem p))) (fun _ => id) s
  | enables p m => cases h; dsimp only [partsOf]; exact takeFrame_frame (fun u => respond_frame_of (onlyChanges_mono (setPort_frame _ p _) (portPart_mem p)) (portIn p) _ _ _) (fun _ => id) s
  | clearLink p => cases h; dsimp only [partsOf]; exact takeFrame_frame (fun u => onlyChanges_trans (R u _ _ _ (portIn p)) (onlyChanges_mono (setPort_frame _ p _) (portPart_mem p))) (fun _ => id) s
  | meter m =>
    cases h; dsimp only [partsOf]; refine takeFrame_frame (fun u => ?_) (by decide) s
    try dsimp only
    split
    · exact respond_frame_of (workMeter_frame _ _) (by decide) _ _ _
    · exact R _ _ _ _ (by decide)
  | anchor q f =>
    cases h; dsimp only [partsOf]; refine takeFrame_frame (fun u => ?_) (by decide) s
    try dsimp only
    split
    · refine respond_frame_of ?_ (by decide) _ _ _
      unfold State.takeAnchor; dsimp only
      refine onlyChanges_trans ?_ (onlyChanges_trans (onlyChanges_mono (raise_frame _ .tp _) (by decide)) (onlyChanges_mono (requestReview_frame _) (by decide)))
      split
      · exact onlyChanges_trans (onlyChanges_mono (withInv_frame _ _) (by decide)) (onlyChanges_mono (raise_frame _ .pp _) (by decide))
      · exact onlyChanges_mono (withInv_frame _ _) (by decide)
    · exact R _ _ _ _ (by decide)
  | declareAvailable a b d =>
    cases h; dsimp only [partsOf]; split
    · refine takeFrame_frame (fun u => ?_) (by decide) s
      try dsimp only
      split
      · exact R _ _ _ _ (by decide)
      · split
        · exact R _ _ _ _ (by decide)
        · split
          · exact respond_frame_of (onlyChanges_trans (onlyChanges_mono (setTrain_frame _ _ _) (by decide)) (onlyChanges_mono (changeAvailability_frame _) (by decide))) (by decide) _ _ _
          · exact R _ _ _ _ (by decide)
    · exact onlyChanges_refl _ _
  | declareOffline a =>
    cases h; dsimp only [partsOf]; refine takeFrame_frame (fun u => ?_) (by decide) s
    try dsimp only
    split
    · exact R _ _ _ _ (by decide)
    · split
      · exact respond_frame_of (onlyChanges_trans (onlyChanges_mono (setTrain_frame _ _ _) (by decide)) (onlyChanges_mono (changeAvailability_frame _) (by decide))) (by decide) _ _ _
      · exact R _ _ _ _ (by decide)
  | release a =>
    cases h; dsimp only [partsOf]; refine takeFrame_frame (fun u => ?_) (by decide) s
    try dsimp only
    split
    · exact R _ _ _ _ (by decide)
    · split
      · exact respond_frame_of (onlyChanges_trans (onlyChanges_mono (setTrain_frame _ _ _) (by decide)) (onlyChanges_mono (tryRelease_frame _ _) (by decide))) (by decide) _ _ _
      · exact R _ _ _ _ (by decide)
  | trainRead a => cases h; dsimp only [partsOf]; refine takeFrame_frame (fun u => ?_) (by decide) s; split <;> exact R _ _ _ _ (by decide)
  | profileRead a b =>
    cases h; dsimp only [partsOf]; refine takeFrame_frame (fun u => ?_) (by decide) s
    split
    · exact R _ _ _ _ (by decide)
    · split
      · exact R _ _ _ _ (by decide)
      · split <;> exact R _ _ _ _ (by decide)
  | profileWrite a b =>
    cases h; dsimp only [partsOf]; refine takeFrame_frame (fun u => ?_) (by decide) s
    try dsimp only
    split
    · exact R _ _ _ _ (by decide)
    · exact respond_frame_of (onlyChanges_mono (withProf_frame _ _) (by decide)) (by decide) _ _ _
  | profileStore =>
    cases h; dsimp only [partsOf]; refine takeFrame_frame (fun u => ?_) (by decide) s
    split
    · exact R _ _ _ _ (by decide)
    · exact respond_frame_of (onlyChanges_mono (withProf_frame _ _) (by decide)) (by decide) _ _ _
  | profileLoad =>
    cases h; dsimp only [partsOf]; refine takeFrame_frame (fun u => ?_) (by decide) s
    split
    · exact R _ _ _ _ (by decide)
    · exact respond_frame_of (onlyChanges_trans (onlyChanges_mono (withProf_frame u _) (by decide)) (onlyChanges_mono (withProf_frame _ _) (by decide))) (by decide) _ _ _
  | profileCheck =>
    cases h; dsimp only [partsOf]; refine takeFrame_frame (fun u => ?_) (by decide) s
    split
    · exact R _ _ _ _ (by decide)
    · exact respond_frame_of (onlyChanges_mono (withProf_frame _ _) (by decide)) (by decide) _ _ _
  | enterService =>
    cases h; dsimp only [partsOf]; refine takeFrame_frame (fun u => ?_) (by decide) s
    split
    · exact R _ _ _ _ (by decide)
    · exact respond_frame_of (onlyChanges_mono (withProf_frame _ _) (by decide)) (by decide) _ _ _
  | enterMaintenance =>
    cases h; dsimp only [partsOf]; refine takeFrame_frame (fun u => ?_) (by decide) s
    split
    · exact R _ _ _ _ (by decide)
    · exact R _ _ _ _ (by decide)
    · exact respond_frame_of (onlyChanges_mono (setMode_frame _ _) (by decide)) (by decide) _ _ _
    · split
      · exact R _ _ _ _ (by decide)
      · exact respond_frame_of (onlyChanges_trans (onlyChanges_mono (setMode_frame _ _) (by decide)) (onlyChanges_mono (leaveService_frame _) (by decide))) (by decide) _ _ _
  | profileStoreCompletion =>
    cases h; dsimp only [partsOf]; split
    · exact onlyChanges_trans (onlyChanges_mono (withProf_frame _ _) (by decide)) (onlyChanges_mono (raise_frame _ .pp _) (by decide))
    · exact onlyChanges_refl _ _
  | profileMemoryFault a b => cases h; dsimp only [partsOf]; exact withProf_frame _ _
  | profileCheckCompletion =>
    cases h; dsimp only [partsOf]; split
    · split
      · exact checkPassed_frame _ _ _
      · exact onlyChanges_mono (checkFailed_frame _ _ _) (by decide)
    · exact onlyChanges_refl _ _
  | clockSet a b =>
    cases h; dsimp only [partsOf]; refine takeFrame_frame (fun u => ?_) (by decide) s
    try dsimp only
    split
    · exact R _ _ _ _ (by decide)
    · exact respond_frame_of (onlyChanges_trans (onlyChanges_mono (withTb_frame _ _) (by decide)) (onlyChanges_trans (onlyChanges_mono (withSlog_frame _ _) (by decide)) (onlyChanges_trans (onlyChanges_mono (openRecord_frame _ _) (by decide)) (onlyChanges_mono (startPendingReview_frame _) (by decide))))) (by decide) _ _ _
  | clockTrim a =>
    cases h; dsimp only [partsOf]; refine takeFrame_frame (fun u => ?_) (by decide) s
    try dsimp only
    split
    · exact R _ _ _ _ (by decide)
    · split
      · exact R _ _ _ _ (by decide)
      · refine respond_frame_of ?_ (by decide) _ _ _
        unfold State.takeTrim; split
        · exact onlyChanges_refl _ _
        · (try dsimp only); split
          · exact boundary_frame _ _
          · exact onlyChanges_mono (withTb_frame _ _) (by decide)
  | intervalBoundary => exact frameOfNext (reachBoundary_frame s) h
  | submit b =>
    cases h; dsimp only [partsOf]; refine takeFrame_frame (fun u => ?_) (by decide) s
    try dsimp only
    split
    · exact R _ _ _ _ (by decide)
    · split
      · exact handOver_frame _ _
      · exact respond_frame_of (handOver_frame _ _) (by decide) _ _ _
  | abandon =>
    cases h; dsimp only [partsOf]; refine takeFrame_frame (fun u => ?_) (by decide) s
    split
    · refine onlyChanges_trans (respond_frame_of ?_ (by decide) _ _ _) (onlyChanges_mono (reportEnd_frame _ _ _ _) (by decide))
      unfold State.dropCheck; split
      · exact passOn_frame _
      · exact onlyChanges_mono (withPrj_frame _ _) (by decide)
    · exact R _ _ _ _ (by decide)
  | checkMode a =>
    cases h; dsimp only [partsOf]; refine takeFrame_frame (fun u => ?_) (by decide) s
    split
    · exact R _ _ _ _ (by decide)
    · split
      · exact R _ _ _ _ (by decide)
      · exact respond_frame_of (onlyChanges_mono (withPrj_frame _ _) (by decide)) (by decide) _ _ _
  | withdraw a =>
    cases h; dsimp only [partsOf]; refine takeFrame_frame (fun u => ?_) (by decide) s
    try dsimp only
    split
    · exact R _ _ _ _ (by decide)
    · split
      · exact R _ _ _ _ (by decide)
      · split
        · exact R _ _ _ _ (by decide)
        · exact respond_frame_of (onlyChanges_trans (onlyChanges_mono (withBook_frame _ _) (by decide)) (onlyChanges_mono (requestReview_frame _) (by decide))) (by decide) _ _ _
  | bookRead a =>
    cases h; dsimp only [partsOf]; refine takeFrame_frame (fun u => ?_) (by decide) s
    split
    · exact R _ _ _ _ (by decide)
    · split <;> exact R _ _ _ _ (by decide)
  | position => cases h; dsimp only [partsOf]; exact takeFrame_frame (fun u => R u _ _ _ (by decide)) (by decide) s
  | recordRead a =>
    cases h; dsimp only [partsOf]; refine takeFrame_frame (fun u => ?_) (by decide) s
    split
    · exact R _ _ _ _ (by decide)
    · split <;> exact R _ _ _ _ (by decide)
  | activate a =>
    cases h; dsimp only [partsOf]; refine takeFrame_frame (fun u => ?_) (by decide) s
    try dsimp only
    split
    · exact respond_frame_of (onlyChanges_mono (withRsv_frame _ _) (by decide)) (by decide) _ _ _
    · exact R _ _ _ _ (by decide)
  | poll => cases h; dsimp only [partsOf]; exact takeFrame_frame (fun u => R u _ _ _ (by decide)) (by decide) s
  | dispatchTick => exact frameOfNext (takeTick_frame s) h
  | lossTick => exact frameOfNext (atEvent_frame s .loss) h
  | staleOnset => exact frameOfNext (atEvent_frame s .stale) h
  | minDownExpiry x => exact frameOfNext (atEvent_frame s (.minDown x)) h
  | minRunExpiry x => exact frameOfNext (atEvent_frame s (.minRun x)) h
  | startHistoryPrune x => exact frameOfNext (atEvent_frame s (.prune x)) h
  | startTimerExpiry x => exact frameOfNext (atEvent_frame s (.start x)) h
  | stopTimerExpiry x => exact frameOfNext (atEvent_frame s (.stop x)) h
  | permitHoldExpiry => exact frameOfNext (atEvent_frame s .permitHold) h
  | cooldownExpiry x => exact frameOfNext (atEvent_frame s (.cooldown x)) h
  | dwellExpiry => exact frameOfNext (atEvent_frame s .dwell) h
  | gridLinkLoss => exact frameOfNext (atEvent_frame s .linkLoss) h
  | activationHoldExpiry => exact frameOfNext (atEvent_frame s .activationHold) h
  | backgroundCheck => exact frameOfNext (atEvent_frame s .background) h
  | tripFallingEdge x => cases h; dsimp only [partsOf]; split <;> [exact fallingEdge_frame _ _; exact onlyChanges_refl _ _]
  | tripRisingEdge x => cases h; dsimp only [partsOf]; split <;> [exact onlyChanges_refl _ _; exact risingEdge_frame _ _]
  | checkCompletion =>
    cases h; dsimp only [partsOf]; split
    · unfold State.completeCheck; dsimp only
      refine onlyChanges_trans (l := [.book, .prj, .pp, .tp]) ?_ (onlyChanges_trans (onlyChanges_mono (passOn_frame _) (by decide)) (onlyChanges_mono (reportEnd_frame _ _ _ _) (by decide)))
      split
      · exact onlyChanges_mono (setMarks_frame _ _ _ _) (by decide)
      · exact onlyChanges_refl _ _
    · exact onlyChanges_refl _ _
  | reviewCompletion =>
    cases h; dsimp only [partsOf]; split
    · exact onlyChanges_trans (l := [.book, .prj, .pp, .tp]) (onlyChanges_mono (setMarks_frame _ _ _ _) (by decide)) (onlyChanges_mono (passOn_frame _) (by decide))
    · exact onlyChanges_refl _ _

end Sys2Proof.Machine
end

