-- ==== Sys2Proof/Tests/Slice0.lean ====
section
/-! SUPPORT. Tests: ill-formed commands refused, frames written byte by byte from spec/10, the worked cases of the chapters one step
at a time, and for every statement with hypotheses a state that meets them. -/

open Sys2Proof Sys2Proof.Machine

namespace Sys2Proof.Tests

set_option Elab.async false

/-! ### A site and its states -/

def compressorFields (sensitivity : Nat) : List Nat := [1, 45000, 20000, 600, 300, 120, 120, 600, 4, sensitivity, 400]
def turbineFields : List Nat := [1, 60000, 25000, 600, 300, 120, 120, 600, 4, 0, 400]

/-- The figures of spec/02 section 2.8 and spec/06 section 6.9, completed to 158 fields; C2 is EDGE_AND_LEVEL. -/
def siteFields : List Nat :=
  [101, 15, 2, 30, 200000] ++
  [6000000, 8000000, 10000000, 12000000, 14000000, 16000000, 18000000, 20000000, 22000000, 24000000, 26000000, 28000000,
    30000000, 32000000, 34000000, 36000000] ++
  [1800, 2400, 3000, 3600, 4200, 4800, 5400, 6100, 6800, 7500, 8200, 8900, 9600, 10300, 11000, 11700] ++
  [4500, 5750, 20000, 25000, 0, 20, 10, 6400, 5200] ++
  [300, 320, 20, 1200000, 100000, 100] ++ [150, 160, 10, 600000, 50000, 100] ++ [50, 40, 5, 250000, 20000, 100] ++
  compressorFields 0 ++ compressorFields 1 ++ compressorFields 0 ++ compressorFields 0 ++
  turbineFields ++ turbineFields ++ turbineFields ++
  [30000, 30000, 120, 1, 2, 3, 4, 1, 2, 3] ++ [5, 30, 10, 60, 16, 0, 42294]

def siteImage : Image := ⟨(siteFields.map (BitVec.ofNat 32)).toArray, rfl⟩

def site : Settings := .ofImage siteImage

/-- The image with one field of the table out of order (field 8 equals field 7): its check fails there. -/
def badImage : Image := siteImage.write 8 8000000#32

set_option maxRecDepth 100000 in
/-- Field 158 is the CRC-16 of fields 1 to 157 (R159), computed apart from the model. -/
theorem test_site_crc : crc16 siteImage = 0xA536#16 := by decide +kernel

set_option maxRecDepth 100000 in
theorem test_site_passes : failingField siteImage = none := by decide +kernel

set_option maxRecDepth 100000 in
theorem test_table_out_of_order_fails_at_its_field : failingField badImage = some 8 := by decide +kernel

def ready : TrainRecord := { TrainRecord.afterReset true with state := .stopped, minDown := .ranOut }
def started (at_ : Nat) : TrainRecord :=
  { TrainRecord.afterReset true with state := .starting, start := .load 120 at_, history := [at_] }
def running : TrainRecord := { TrainRecord.afterReset true with state := .running, minRun := .ranOut, output := 45000 }
def stopping (at_ : Nat) : TrainRecord := { TrainRecord.afterReset true with state := .stopping, stop := .load 120 at_ }
def locked (at_ : Nat) : TrainRecord :=
  { TrainRecord.afterReset true with
    state := .locked, reason := some .tripLine, cooldown := .load 600 at_, releaseTaken := true, sensitivity := .edgeAndLevel }
def inState (x : TrainState) : TrainRecord := { TrainRecord.afterReset true with state := x }

def block (reference first length : Nat) (direction : Direction) (power up down : Nat) : Block :=
  { terms :=
      { reference := reference, first := first, length := length, direction := direction, power := power
        reserveUp := up, reserveDown := down }
    atRisk := false }

/-- Block 12 of the worked sequences: CHARGE 90,000 kW, 30,000 kW of upward reserve. -/
def block12 : Block := block 12 50001 8 .charge 90000 30000 0
def block13 : Block := block 13 50010 2 .discharge 120000 40000 0

/-- In MAINTENANCE after a passing check: idle images, an empty book, no clock, no inventory, every train OFFLINE. -/
def resting : State :=
  { State.reset with
    tb := { TimeBase.afterReset with count := 7200#48, nextLoss := 7260 }
    prj := { Engine.afterReset with defaultApplied := true }
    trc := { TrainController.afterReset ⟨true, true, true, true, true, true, true⟩ with records := .of fun _ => inState .offline }
    prof :=
      { working := siteImage, stored := siteImage, bad := false, lastCheck := .pass, failingField := 0, activity := .idle
        mode := .maintenance, background := none, siteCode := 101 }
    settings := some site }

/-- In SERVICE in interval 50,001, charging: block 12 current, block 13 to come, one train in each state. -/
def serving : State :=
  { resting with
    inv :=
      { Inventory.afterReset with
        mass := 17000000, heat := ⟨600000, 300000, 100000⟩, status := .tracking, epoch := 4#32, lastMeter := 7210
        massBase := ⟨some 0#32, some 4294967200#32, some 0#32, some 0#32, some 0#32, some 0#32, some 0#32⟩
        heatInBase := ⟨some 0#32, some 0#32, some 0#32⟩, heatOutBase := ⟨some 0#32, some 0#32, some 0#32⟩ }
    tb := { count := 7210#48, phase := 0, tickOpen := false, nextLoss := 7260, clock := some { interval := 50001, millis := 5000 } }
    book := { blocks := [block12, block13], revision := 40#16 }
    trc :=
      { records := ⟨running, locked 7000, started 7091, stopping 7090, ready, inState .offline, inState .tripped⟩
        generation := 8#32, permitHold := none }
    du := { DispatchUnit.afterReset with
      target := -45000, previous := -45000, working := -45000, clamped := -45000, setpoint := ⟨45000, 0, 0, 0, 0, 0, 0⟩
      metered := -45000 }
    rsv := { Reserve.afterReset with link := .linked, linkTimer := some 7210, granted := 20000, lossCount := 3#16 }
    slog :=
      { current := some
          { interval := 50001, reference := some 12, startMass := some 17000000, startEpoch := 4#32, scheduled := 0
            delivered := -5000, reserveUp := 0, reserveDown := 0, ticks := 0
            flags := ⟨false, false, false, false, false, false, false, false⟩ }
        ring := [] }
    prof := { resting.prof with mode := .service, background := some 7211 } }

def withTrain (t : Train) (r : TrainRecord) : State := serving.setTrain t r

/-- What the machine answers, where it answers a next state. -/
def after (c : Instr) (s : State) : State :=
  match exec c s with
  | .next t => t
  | _ => s

/-- The result code of the last frame queued on a port. -/
def resultOn (p : Port) (s : State) : Option Byte := (s.port p).output.getLast?.bind fun f => f.payload[1]?

/-- A METER in which every train reports `status` and output 0, with mass totalisers at 0 but C2's, and heats at 0. -/
def report (status c2 : Nat) (pressure : Nat) : MeterReport :=
  let reading : TrainReading := { status := BitVec.ofNat 8 status, output := 0#32, mass := 0#32 }
  { trains := ⟨reading, { reading with mass := BitVec.ofNat 32 c2 }, reading, reading, reading, reading, reading⟩
    pressure := BitVec.ofNat 16 pressure
    tiers := ⟨⟨0#32, 0#32⟩, ⟨0#32, 0#32⟩, ⟨0#32, 0#32⟩⟩ }

/-- SUBMIT fields of block 15 of spec/03 section 3.14, over `length` intervals from `first`. -/
def offer (reference first length : Nat) : BlockFields :=
  { reference := BitVec.ofNat 16 reference, first := BitVec.ofNat 32 first, length := BitVec.ofNat 8 length, direction := 2#8
    power := 100000#32, reserveUp := 20000#32, reserveDown := 0#32 }

/-! ### Ill-formed commands -/

theorem test_short_reset_is_ill_formed :
    Instr.wellFormed (.pinReset 9 ⟨true, true, true, true, true, true, true⟩) = false := by decide
theorem test_known_kind_is_not_unknown : Instr.wellFormed (.unknownKind .gp 0x31#8) = false := by decide
theorem test_kind_of_another_port_is_unknown : Instr.wellFormed (.unknownKind .gp 0x27#8) = true := by decide
theorem test_right_length_is_not_bad : Instr.wellFormed (.badLength .tp 0x22#8 20#8) = false := by decide
theorem test_length_121_is_not_a_bad_length : Instr.wellFormed (.badLength .tp 0x22#8 121#8) = false := by decide
theorem test_bad_length_of_unknown_kind : Instr.wellFormed (.badLength .gp 0x22#8 1#8) = false := by decide
theorem test_offline_code_is_another_row : Instr.wellFormed (.declareAvailable 1#8 2#8 0#8) = false := by decide
theorem test_fault_in_field_0 : Instr.wellFormed (.profileMemoryFault 0#8 5#32) = false := by decide
theorem test_fault_in_field_159 : Instr.wellFormed (.profileMemoryFault 159#8 5#32) = false := by decide

/-! ### Frames, byte by byte (R174, R176, sections 10.8 and 10.9)

The CRC bytes were computed apart from the model: polynomial 0x2F, start value 0xFF, most significant bit first. -/

theorem test_receive_poll : receive .gp [0x31#8, 0x00#8, 0x3E#8] = .poll := by decide +kernel
theorem test_receive_status : receive .tp [0x01#8, 0x00#8, 0x51#8] = .status .tp := by decide +kernel
theorem test_receive_enables : receive .gp [0x03#8, 0x01#8, 0x0F#8, 0x08#8] = .enables .gp 0x0F#8 := by decide +kernel
theorem test_receive_wrong_crc : receive .gp [0x31#8, 0x00#8, 0x3F#8] =
    .frameDiscard .gp [.brk, .byte 0x31#8, .byte 0x00#8, .byte 0x3F#8] := by decide +kernel
theorem test_receive_cut_short : receive .gp [0x31#8, 0x00#8] =
    .frameDiscard .gp [.brk, .byte 0x31#8, .byte 0x00#8, .gap] := by decide +kernel
/-- A sent frame carries its length and its CRC-8, computed apart from the model. -/
theorem test_sent_frame_bytes : (Frame.make 0x84#8 [0xA8#8, 0x00#8, 0x01#8]).bytes = [0x84#8, 3#8, 0xA8#8, 0x00#8, 0x01#8, 0xFF#8] := by
  decide +kernel
theorem test_receive_unknown : receive .pp [0x40#8, 0x00#8, 0x2C#8] = .unknownKind .pp 0x40#8 := by decide +kernel
theorem test_receive_bad_length : receive .tp [0x21#8, 0x01#8, 0x00#8, 0x61#8] = .badLength .tp 0x21#8 1#8 := by decide +kernel
theorem test_receive_activate :
    receive .gp [0x30#8, 0x04#8, 0xFF#8, 0xFF#8, 0xB1#8, 0xE0#8, 0xA3#8] = .activate (BitVec.ofInt 32 (-20000)) := by
  decide +kernel
theorem test_receive_submit :
    receive .tp
      [0x22#8, 0x14#8, 0x00#8, 0x0F#8, 0x00#8, 0x00#8, 0xC3#8, 0x59#8, 0x01#8, 0x02#8, 0x00#8, 0x01#8, 0x86#8, 0xA0#8,
        0x00#8, 0x00#8, 0x4E#8, 0x20#8, 0x00#8, 0x00#8, 0x00#8, 0x00#8, 0xBC#8] = .submit (offer 15 50009 1) := by
  decide +kernel
theorem test_receive_declare_available :
    receive .pp [0x12#8, 0x03#8, 0x05#8, 0x01#8, 0x02#8, 0x6F#8] = .declareAvailable 5#8 1#8 2#8 := by decide +kernel
theorem test_receive_declare_offline :
    receive .pp [0x12#8, 0x03#8, 0x05#8, 0x02#8, 0x09#8, 0x5D#8] = .declareOffline 5#8 := by decide +kernel
theorem test_receive_profile_write :
    receive .pp [0x16#8, 0x05#8, 0x02#8, 0x00#8, 0x00#8, 0x00#8, 0x1E#8, 0x6C#8] = .profileWrite 2#8 30#32 := by decide +kernel
theorem test_receive_clock_trim :
    receive .tp [0x21#8, 0x02#8, 0xFA#8, 0x24#8, 0xE3#8] = .clockTrim (BitVec.ofInt 16 (-1500)) := by decide +kernel
theorem test_receive_clock_set :
    receive .tp [0x20#8, 0x08#8, 0x00#8, 0x00#8, 0xC3#8, 0x50#8, 0x00#8, 0x0D#8, 0xB7#8, 0xB8#8, 0xC2#8] =
      .clockSet 50000#32 899000#32 := by decide +kernel
theorem test_receive_anchor :
    receive .pp
      [0x11#8, 0x0E#8, 0x13#8, 0xEC#8, 0x00#8, 0x09#8, 0x27#8, 0xC0#8, 0x00#8, 0x04#8, 0x93#8, 0xE0#8, 0x00#8, 0x01#8,
        0x86#8, 0xA0#8, 0xBA#8] = .anchor 5100#16 ⟨600000#32, 300000#32, 100000#32⟩ := by decide +kernel
set_option maxRecDepth 100000 in
/-- The METER layout: payload byte n is n, so each field shows the bytes it takes. -/
theorem test_receive_meter :
    (match receive .pp ([0x10#8, 89#8] ++ (List.range 89).map (BitVec.ofNat 8) ++ [0x4D#8]) with
      | .meter r => some (r.trains.c1, r.trains.e3, r.pressure, r.tiers.t3)
      | _ => none) =
    some (⟨0#8, 0x01020304#32, 0x05060708#32⟩, ⟨54#8, 0x3738393A#32, 0x3B3C3D3E#32⟩, 0x3F40#16,
      ⟨0x51525354#32, 0x55565758#32⟩) := by decide +kernel

/-! ### Worked cases of the arithmetic (spec/02) -/

/-- The table of section 2.1.1, both ways. -/
theorem test_table_worked_case :
    [17000000, 17003332, 17003333, 17003334].map (forwardTable site.table) = [5100, 5100, 5100, 5101] ∧
      [5100, 5101].map (inverseTable site.table) = [17000000, 17003333] := by decide +kernel
/-- Derived masses and rate caps of sections 2.8 and 2.6.1. -/
theorem test_derived_worked_case :
    (site.massFloor, site.massCeil, site.dischargeCap, site.chargeCap) = (15000000, 19000000, 288461, 187500) := by
  decide +kernel
/-- Positions of section 2.3.1. -/
theorem test_position_worked_case :
    dischargePosition site 1 17000000 ⟨600000, 300000, 100000⟩ = (346153, .air) ∧
      chargePosition site 2 17000000 ⟨600000, 300000, 100000⟩ = (250000, .air) := by decide +kernel

def charge : Terms := (block 1 50001 1 .charge 90000 0 0).terms
def discharge : Terms := (block 2 50003 2 .discharge 120000 40000 0).terms

/-- The snapshot of section 2.9. -/
def snapshot (e2 : TrainState) : Snapshot :=
  { mass := 17000000, heat := ⟨600000, 300000, 100000⟩, status := .tracking, margin := 1, epoch := 4#32, generation := 8#32
    trains := { PerTrain.of (fun _ => TrainState.stopped) with e2 := e2 }
    clock := { interval := 50000, millis := 0 }, book := [charge], settings := site }

/-- The projected values of section 2.9 at the end of 50,000 and of 50,001. -/
theorem test_walk_worked_values :
    let first := walkInterval site .uncovered 15 { mass := 17000000, heat := ⟨600000, 300000, 100000⟩ }
    first = { mass := 17000000, heat := ⟨599820, 299955, 99992⟩ } ∧
      walkInterval site charge 15 first = { mass := 17144000, heat := ⟨642827, 321506, 107183⟩ } := by decide +kernel
/-- The checks of 50,003 pass in section 2.9 and POWER fails in section 2.9.1. -/
theorem test_walk_worked_checks :
    let p : Projected := { mass := 16988000, heat := ⟨592536, 296452, 100926⟩ }
    intervalChecks (snapshot .stopped).basis discharge 15 156000 p = none ∧
      intervalChecks (snapshot .tripped).basis discharge 15 156000 p = some (.power, 0) := by decide +kernel
/-- Section 2.9.1: the first failing interval is 50,003. -/
theorem test_walk_finds_the_tripped_turbine :
    (snapshot .tripped).walk (some discharge) = some { interval := 50003, reason := .power, tier := 0 } := by decide +kernel
/-- Sections 2.7 and 8.7: kW·s to kWh, truncated toward zero. -/
theorem test_settlement_conversion : [(-5000 : Int), -80999990, -72030000].map toKwh = [-1, -22499, -20008] := by decide

/-! ### Steps -/

/-- Section 9.1: a new part fails its post-reset check at field 1 and goes to MAINTENANCE (R161). -/
theorem test_new_part_fails_at_field_1 :
    let s := after .profileCheckCompletion State.reset
    (s.prof.mode, s.prof.failingField, s.prof.bad) = (.maintenance, 1, true) := by decide +kernel
set_option maxRecDepth 100000 in
/-- Installed trains leave ABSENT for OFFLINE and the site code is field 1 (R86, R160). -/
theorem test_passing_check_hands_values_out :
    let s := after .profileCheckCompletion { State.reset with prof := .afterReset siteImage siteImage }
    (s.prof.mode, s.prof.siteCode, (s.train .e3).state, s.settings.map Settings.linkTimeout) =
      (.maintenance, 101, .offline, some 10) := by decide +kernel
theorem test_short_pin_low_is_ignored :
    (after (.pinReset 9 ⟨true, true, true, true, true, true, true⟩) serving).prof.mode = .service := by decide +kernel
/-- R175: a gap and a parity error in WAITING are ignored; a break within a frame discards it and begins the next, which the gap
after its first byte discards. -/
theorem test_line_discards_are_counted :
    let s := after (.frameDiscard .gp [.gap, .parityError, .brk, .gap, .brk, .byte 0x31#8, .gap, .noStopBit]) serving
    ((s.port .gp).errors, (s.port .gp).assembler) = (2, .waiting) := by decide +kernel
/-- A break in WAITING leaves the port IN_FRAME, and the bytes after it are kept (R175). -/
theorem test_frame_in_progress :
    (after (.frameDiscard .gp [.brk, .byte 0x31#8, .byte 0x00#8]) serving).port .gp =
      { serving.port .gp with assembler := .inFrame [0x31#8, 0x00#8] } := by decide +kernel
/-- R175: a good frame is complete at its CRC byte; the break after it begins the next frame and discards nothing. -/
theorem test_good_frame_is_no_discard :
    (after (.frameDiscard .gp [.brk, .byte 0x31#8, .byte 0x00#8, .byte 0x3E#8, .byte 0x55#8, .brk]) serving).port .gp =
      { serving.port .gp with assembler := .inFrame [] } := by decide +kernel
/-- R175: the break of a whole frame discards the frame in progress, counted once; the frame itself is answered. -/
theorem test_frame_breaks_into_a_frame :
    let s := after (.status .gp) (after (.frameDiscard .gp [.brk, .byte 0x10#8]) serving)
    ((s.port .gp).errors, (s.port .gp).assembler, resultOn .gp s) = (1, .waiting, some 0x00#8) := by decide +kernel
/-- R174, R179: a break before each frame that the line sends. -/
theorem test_sent_line :
    sentLine [Frame.make 0x84#8 [], Frame.make 0x81#8 []] =
      [.brk, .byte 0x84#8, .byte 0#8, .byte (Frame.make 0x84#8 []).crc, .brk, .byte 0x81#8, .byte 0#8,
        .byte (Frame.make 0x81#8 []).crc] := rfl
theorem test_unknown_kind_answers_ff :
    (((after (.unknownKind .gp 0x40#8) serving).port .gp).output.map Frame.kind) = [0xFF#8] := by decide +kernel
theorem test_bad_length_is_counted :
    let s := after (.badLength .tp 0x22#8 19#8) serving
    (resultOn .tp s, (s.port .tp).errors) = (some 0x03#8, 1) := by decide +kernel
theorem test_response_sent_frees_the_port :
    let s := after (.responseSent .tp) (after (.status .tp) serving)
    ((s.port .tp).owed, (s.port .tp).output) = (false, []) := by decide +kernel
/-- R181: MODE is SERVICE (bits 5..4 = 2) and ANCHORED is bit 3. -/
theorem test_status_byte : serving.statusByte .tp = 0xA8#8 := by decide +kernel
theorem test_causes_are_cleared :
    let s := after (.causes .tp) (serving.raise .tp .capacity)
    (((s.port .tp).output.map Frame.payload), (s.port .tp).causes) = ([[0xA8#8, 0x00#8, 0x08#8]], 0#8) := by decide +kernel
theorem test_enables_drop_missing_causes :
    ((after (.enables .gp 0xFF#8) serving).port .gp).enables = 0x0F#8 := by decide +kernel
theorem test_clear_link :
    ((after (.clearLink .pp) (serving.countError .pp)).port .pp).errors = 0 := by decide +kernel
/-- Section 1.10, METER at 7,211: the wrap counts 160 kg. -/
theorem test_meter_counts_across_a_wrap :
    let s := after (.meter (report 1 64 5101)) { serving with tb := { serving.tb with count := 7211#48 } }
    (s.inv.mass, s.inv.massBase.c2, s.inv.drift, s.inv.lastMeter) = (17000160, some 64#32, 0, 7211) := by decide +kernel
/-- Section 1.10, METER at 7,212: the replaced meter's delta is discarded, CLAMP is raised and the record marked. -/
theorem test_meter_discards_an_implausible_delta :
    let s := after (.meter (report 1 0 5126))
      { serving with
        tb := { serving.tb with count := 7212#48 }
        inv := { serving.inv with lastMeter := 7211, massBase := { serving.inv.massBase with c2 := some 64#32 } } }
    (s.inv.mass, s.inv.massBase.c2, s.inv.drift, (s.port .pp).causes &&& 0x08#8,
      s.slog.current.map fun r => r.flags.discontinuity) = (17000000, some 0#32, 1, 0x08#8, some true) := by decide +kernel
/-- A status code of 6 refuses the whole METER (R4). -/
theorem test_meter_bad_status : resultOn .pp (after (.meter (report 6 64 5101)) serving) = some 0x04#8 := by decide +kernel
/-- Reports of STOPPED: a RUNNING train trips with UNEXPECTED_STOP, a STOPPING one stops, a TRIPPED one is locked (R98). -/
theorem test_meter_moves_trains :
    let s := after (.meter (report 1 64 5101)) serving
    ((s.train .c1).reason, (s.train .c4).state, (s.train .e3).cooldown.expiry, (s.train .e2).state) =
      (some .unexpectedStop, .stopped, some 7810, .offline) := by decide +kernel
/-- ANCHOR at 5,100 kPa: 17,000,000 kg (section 2.1.1); a heat above its capacity is clamped and CLAMP raised (R13). -/
theorem test_anchor_clamps :
    let s := after (.anchor 5100#16 ⟨1200001#32, 300000#32, 100000#32⟩) resting
    (s.inv.mass, s.inv.heat.t1, s.inv.status, s.inv.epoch, (s.port .pp).causes, (s.port .tp).causes) =
      (17000000, 1200000, .tracking, 1#32, 0x08#8, 0x04#8) := by decide +kernel
/-- The loss of one minute: floor(600,000 × 20 / 1,000,000) and so on (R16). -/
theorem test_loss_tick :
    (after .lossTick { serving with tb := { serving.tb with count := 7260#48 } }).inv.heat = ⟨599988, 299997, 100000⟩ := by
  decide +kernel
theorem test_loss_tick_not_due : (after .lossTick serving).inv.heat = serving.inv.heat := by decide +kernel
/-- Section 1.11: stale onset at 5 s, with the permit hold from the onset. -/
theorem test_stale_onset :
    let s := after .staleOnset { serving with tb := { serving.tb with count := 7214#48 } }
    (s.inv.metering, s.now, s.trc.permitHold) = (.stale, 7215, some 7245) := by decide +kernel
theorem test_stale_onset_not_due : (after .staleOnset serving).inv.metering = .fresh := by decide +kernel
/-- The start count is clamped to starts per day (R92). -/
theorem test_declare_seeds_the_history :
    let s := after (.declareAvailable 6#8 1#8 9#8) serving
    ((s.train .e2).state, (s.train .e2).history, (s.train .e2).minDown.expiry, s.trc.generation) =
      (.stopped, [7210, 7210, 7210, 7210], some 7510, 9#32) := by decide +kernel
theorem test_declare_offline_active :
    resultOn .pp (after (.declareOffline 1#8) serving) = some 0x0B#8 := by decide +kernel
/-- Section 5.15, 60,100: the RELEASE is taken, the cooldown still runs. -/
theorem test_release_waits_for_the_cooldown :
    let s := after (.release 2#8) serving
    (resultOn .pp s, (s.train .c2).state, (s.train .c2).releaseTaken) = (some 0x00#8, .locked, true) := by decide +kernel
/-- Section 5.15, 60,812. -/
theorem test_release_after_the_cooldown :
    let s := after (.release 2#8) (withTrain .c2 { locked 7000 with cooldown := .ranOut, releaseTaken := false })
    ((s.train .c2).state, (s.train .c2).minDown, (s.train .c2).reason, s.trc.generation) =
      (.stopped, .ranOut, none, 9#32) := by decide +kernel
theorem test_train_read_none : resultOn .pp (after (.trainRead 8#8) serving) = some 0x04#8 := by decide +kernel
theorem test_min_run_expiry :
    ((after (.minRunExpiry .c1) (withTrain .c1 { running with minRun := .load 1 7210 })).train .c1).minRun = .ranOut := by
  decide +kernel
theorem test_min_down_expiry :
    ((after (.minDownExpiry .e1) (withTrain .e1 { ready with minDown := .load 2 7210 })).train .e1).minDown = .load 2 7210 := by
  decide +kernel
theorem test_start_timer_trips :
    ((after (.startTimerExpiry .c3) serving).train .c3).reason = some .startTimeout := by decide +kernel
theorem test_stop_timer_trips :
    let s := after (.stopTimerExpiry .c4) serving
    ((s.train .c4).reason, s.now, s.du.dwell) = (some .stopTimeout, 7210, none) := by decide +kernel
/-- Section 5.15, last remark: with the RELEASE standing, the train is released at the cooldown's expiry. -/
theorem test_cooldown_expiry_releases :
    let s := after (.cooldownExpiry .c2) (withTrain .c2 (locked 6610))
    ((s.train .c2).state, (s.port .pp).causes, (s.port .tp).causes) = (.stopped, 0x02#8, 0x08#8) := by decide +kernel
/-- Section 5.15: the start of 40,000 leaves at 126,400. -/
theorem test_history_prune :
    let s := after (.startHistoryPrune .e1)
      { withTrain .e1 { ready with history := [40000, 52000] } with tb := { serving.tb with count := 126400#48 } }
    (s.train .e1).history = [52000] := by decide +kernel
theorem test_permit_hold_trips_with_link :
    let s := after .permitHoldExpiry { serving with trc := { serving.trc with permitHold := some 7210 } }
    ((s.train .c1).reason, (s.train .c3).reason, (s.train .e1).state, s.du.dwell, s.trc.generation) =
      (some .link, some .link, .stopped, some 7330, 11#32) := by decide +kernel
/-- Section 5.15, 60,000 and 60,210. -/
theorem test_falling_edges :
    ((after (.tripFallingEdge .c1) serving).train .c1).reason = some .tripLine ∧
      ((after (.tripFallingEdge .c2) serving).train .c2).cooldown = .load 600 7210 := by decide +kernel
theorem test_rising_edge_releases :
    ((after (.tripRisingEdge .c2)
      (withTrain .c2 { locked 0 with cooldown := .ranOut, lineHigh := false })).train .c2).state = .stopped := by decide +kernel
theorem test_profile_read_busy :
    resultOn .pp (after (.profileRead 1#8 2#8) { resting with prof := { resting.prof with activity := .storing siteImage } }) =
      some 0x02#8 := by decide +kernel
theorem test_profile_write_sets_bad :
    let s := after (.profileWrite 4#8 45#32) resting
    (s.prof.working.field 4, s.prof.stored.field 4, s.prof.bad, s.faultLine) = (45, 30, true, true) := by decide +kernel
theorem test_store_in_three_steps :
    let s := after .profileStore { resting with prof := { resting.prof with working := badImage } }
    (s.prof.stored.field 158, (after .profileStoreCompletion s).prof.stored.field 8) = (4294967295, 8000000) := by
  decide +kernel
theorem test_profile_load_checks :
    (after .profileLoad { resting with prof := { resting.prof with stored := badImage } }).prof.activity =
      .verifying .plain badImage := by decide +kernel
theorem test_profile_check_busy : resultOn .pp (after .profileCheck State.reset) = some 0x02#8 := by decide +kernel
theorem test_enter_service_wrong_mode : resultOn .pp (after .enterService serving) = some 0x06#8 := by decide +kernel
set_option maxRecDepth 100000 in
/-- R168: a passing ENTRY check in MAINTENANCE makes the mode SERVICE and loads the background timer. -/
theorem test_entry_check_enters_service :
    let s := after .profileCheckCompletion { resting with prof := { resting.prof with activity := .verifying .entry siteImage } }
    (s.prof.mode, s.prof.background, (s.train .c2).sensitivity, s.prj.pendingReview) =
      (.service, some 10800, .edgeAndLevel, true) := by decide +kernel
/-- R171: a failing background check in SERVICE trips the active trains. -/
theorem test_failing_check_faults :
    let s := after .profileCheckCompletion { serving with prof := { serving.prof with activity := .verifying .plain badImage } }
    (s.prof.mode, (s.train .c1).reason, s.rsv.granted, s.du.target, s.faultLine) = (.faulted, some .coord, 0, 0, true) := by
  decide +kernel
theorem test_enter_maintenance_active : resultOn .pp (after .enterMaintenance serving) = some 0x0B#8 := by decide +kernel
theorem test_memory_fault_is_silent :
    let s := after (.profileMemoryFault 8#8 8000000#32) serving
    (s.prof.working, s.prof.bad, s.ports) = (badImage, false, serving.ports) := by decide +kernel
theorem test_background_check_starts :
    let s := after .backgroundCheck serving
    (s.prof.activity, s.prof.background) = (.verifying .plain siteImage, some 10811) := by decide +kernel
theorem test_clock_set_opens_a_partial_record :
    let s := after (.clockSet 50000#32 899000#32) resting
    (s.tb.clock, s.slog.current.map fun r => (r.interval, r.flags.isPartial)) =
      (some { interval := 50000, millis := 899000 }, some (50000, true)) := by decide +kernel
theorem test_clock_set_millis_too_large : resultOn .tp (after (.clockSet 1#32 900000#32) resting) = some 0x04#8 := by
  decide +kernel
/-- Section 3.14: +1,500 at 899,000 ms crosses the boundary and leaves 500 ms. -/
theorem test_trim_across_the_boundary :
    let s := after (.clockTrim 1500#16)
      { serving with
        tb := { serving.tb with clock := some { interval := 50000, millis := 899000 } }
        book := { blocks := [block 11 49997 4 .charge 90000 0 0, block12, block13], revision := 40#16 } }
    (s.tb.clock, s.book.blocks, s.book.revision) =
      (some { interval := 50001, millis := 500 }, [block12, block13], 41#16) := by decide +kernel
/-- Section 3.14: -2,000 at 1,200 ms stops at the start of the interval. -/
theorem test_trim_stops_at_the_start :
    let s := after (.clockTrim (BitVec.ofInt 16 (-2000)))
      { serving with tb := { serving.tb with clock := some { interval := 50001, millis := 1200 } } }
    (s.tb.clock, ((s.port .tp).output.map fun f => f.payload.drop 2)) =
      (some { interval := 50001, millis := 0 }, [[0xFB#8, 0x50#8, 0#8, 0#8, 0xC3#8, 0x51#8, 0#8, 0#8, 0#8, 0#8]]) := by
  decide +kernel
/-- Section 3.14: the SUBMITs that are refused there, with GATE_CLOSED, OVERLAP and DUPLICATE_REF. -/
theorem test_submits_refused :
    ([offer 14 50002 1, offer 15 50005 8, offer 13 50009 1].map fun f => resultOn .tp (after (.submit f) serving)) =
      [some 0x0E#8, some 0x10#8, some 0x0D#8] := by decide +kernel
/-- Section 3.14: a candidate handed over while a review runs waits behind it. -/
theorem test_submit_waits_behind_a_review :
    let s := after (.submit (offer 15 50009 1))
      { serving with prj := { serving.prj with running := some (.review (snapshot .stopped)), checkMode := .notify } }
    (s.prj.waiting.map Terms.reference, resultOn .tp s) = (some 15, some 0x01#8) := by decide +kernel
/-- Section 3.14: WITHDRAW 12 is before the gate, WITHDRAW 13 is not. -/
theorem test_withdraw :
    resultOn .tp (after (.withdraw 12#16) serving) = some 0x0E#8 ∧
      (after (.withdraw 13#16) serving).book = { blocks := [block12], revision := 41#16 } := by decide +kernel
theorem test_book_read_end : resultOn .tp (after (.bookRead 2#8) serving) = some 0x19#8 := by decide +kernel
/-- Section 2.3.1: the POSITION response. -/
theorem test_position :
    ((after .position serving).port .tp).output.map (fun f => f.payload.take 13) =
      [[0xA8#8, 0#8, 0x00#8, 0x05#8, 0x48#8, 0x29#8, 1#8, 0x00#8, 0x04#8, 0x4A#8, 0xA2#8, 1#8, 1#8]] := by decide +kernel
theorem test_record_read_not_found : resultOn .tp (after (.recordRead 50001#32) serving) = some 0x09#8 := by decide +kernel
/-- Section 8.7: the closed record's delivered -5,000 kW·s is -1 kWh (section 2.7), and the next record opens. -/
theorem test_boundary_closes_the_record :
    let s := after .intervalBoundary { serving with tb := { serving.tb with clock := some { interval := 50001, millis := 899500 } } }
    (s.slog.ring.map fun r => (r.opened.interval, r.deliveredKwh), s.slog.current.map OpenRecord.interval) =
      ([(50001, -1)], some 50002) := by decide +kernel
/-- R39: the milliseconds are short of L × 60,000 by more than the rest of the second, so no boundary is reached. -/
theorem test_boundary_not_reached : (after .intervalBoundary serving).tb = serving.tb := by decide +kernel
theorem test_numbering_ends :
    (after .intervalBoundary
      { serving with tb := { serving.tb with clock := some { interval := 4000000000, millis := 899000 } } }).tb.clock = none := by
  decide +kernel
theorem test_check_mode_busy :
    resultOn .tp (after (.checkMode 1#8) { serving with prj := { serving.prj with running := some (.check discharge (snapshot .stopped)) } }) =
      some 0x02#8 := by decide +kernel
theorem test_abandon_without_a_check : resultOn .tp (after .abandon serving) = some 0x15#8 := by decide +kernel
/-- Section 2.9.1: the check ends with REFUSED, POWER, tier 0, interval 50,003, in a notice. -/
theorem test_check_completion_refuses :
    let s := after .checkCompletion
      { serving with
        prj := { serving.prj with checkMode := .notify, running := some (.check discharge (snapshot .tripped)) }
        tb := { serving.tb with clock := some { interval := 50000, millis := 0 } } }
    ((s.port .tp).output.map fun f => (f.kind, f.payload.drop 1)) =
      [(0xC0#8, [0x18#8, 0#8, 2#8, 5#8, 0#8, 0#8, 0#8, 0xC3#8, 0x53#8, 0#8, 40#8])] := by decide +kernel
theorem test_review_marks_the_book :
    let failing : Snapshot := { snapshot .stopped with mass := 15000000, book := [] }
    let s := after .reviewCompletion { serving with prj := { serving.prj with running := some (.review failing) } }
    (s.book.blocks.map Block.atRisk, s.book.revision, (s.port .pp).causes) = ([true, true], 41#16, 0x10#8) := by decide +kernel
/-- Section 8.7: ACTIVATE within the band of block 12 (0 to +30,000). -/
theorem test_activate_is_held_in_the_band :
    (after (.activate 50000#32) serving).rsv.granted = 30000 ∧
      (after (.activate (BitVec.ofInt 32 (-1))) serving).rsv.granted = 0 := by decide +kernel
/-- Section 7.8: POLL loads the link timer with 10 s. -/
theorem test_poll_loads_the_link_timer : (after .poll serving).rsv.linkTimer = some 7220 := by decide +kernel
/-- Section 7.8: the loss keeps g and loads the hold with 60 s. -/
theorem test_link_loss_holds_the_grant :
    (after .gridLinkLoss serving).rsv =
      { granted := 20000, link := .lost, linkTimer := none, holdTimer := some 7270, lossCount := 4#16 } := by decide +kernel
theorem test_hold_expiry_drops_the_grant :
    (after .activationHoldExpiry
      { serving with rsv := { serving.rsv with link := .lost, linkTimer := none, holdTimer := some 7211 } }).rsv.granted = 0 := by
  decide +kernel
theorem test_dwell_expiry :
    (after .dwellExpiry { serving with du := { serving.du with dwell := some 7211, dwellKind := some .turbine } }).du.dwellKind =
      none := by decide +kernel

/-- Before tick 100,000 of section 6.9: C1 and C2 at 45,000 kW each, the block now DISCHARGE 120,000. -/
def turning : State :=
  { serving with
    trc := { serving.trc with records := ⟨running, running, ready, ready, ready, ready, ready⟩ }
    du := { serving.du with target := -90000, previous := -90000 }
    rsv := { serving.rsv with granted := 0 }
    book := { serving.book with blocks := [block 20 50001 1 .discharge 120000 0 0] } }

/-- Tick 100,000 of section 6.9. -/
theorem test_tick_turns_to_discharge :
    let s := after .dispatchTick turning
    (s.du.target, s.du.working, (s.train .c1).state, (s.train .c2).state, (s.train .e1).state, s.du.setpoint.c1) =
      (-45000, 0, .running, .stopping, .stopped, 45000) := by decide +kernel
/-- R38 and R133: a tick does not pass a timer that is due; the link timer due at 7,210 is taken before 7,211. -/
theorem test_tick_takes_the_timers_that_are_due :
    let s := after .dispatchTick serving
    (s.now, s.rsv.link, s.rsv.holdTimer, (s.train .c4).reason) = (7211, .lost, some 7270, some .stopTimeout) := by decide +kernel
/-- R152: a boundary at the instant of a tick, taken after it (the second's delivered energy is in the closed record) and before it. -/
theorem test_tick_and_boundary_at_one_instant :
    let s := { serving with tb := { serving.tb with clock := some { interval := 50001, millis := 899000 } } }
    let first := after .dispatchTick s
    let second := after .dispatchTick (after .intervalBoundary s)
    (first.now, first.slog.ring.map fun r => r.opened.ticks, first.slog.current.map OpenRecord.ticks) = (7211, [1], some 0) ∧
      (second.now, second.slog.ring.map fun r => r.opened.ticks, second.slog.current.map OpenRecord.ticks) = (7211, [0], some 1) := by
  decide +kernel
/-- R39: the milliseconds of the interval run with the device second, across the boundary. -/
theorem test_tick_moves_the_milliseconds :
    (after .dispatchTick { serving with tb := { serving.tb with phase := 400, clock := some { interval := 50001, millis := 899900 } } }).tb.clock =
      some { interval := 50002, millis := 500 } := by decide +kernel
/-- Tick 100,302 of section 6.9: D shared 60,000 each; 60,001 among two is 30,001 and 30,000 (R127). -/
theorem test_tick_shares_the_target :
    let s := after .dispatchTick
      { turning with
        trc := { turning.trc with records := ⟨ready, ready, ready, ready, running, running, ready⟩ }
        du := { turning.du with previous := 90000 } }
    (s.du.target, s.du.setpoint) = (120000, ⟨0, 0, 0, 0, 60000, 60000, 0⟩) := by decide +kernel

/-! ### Witnesses: for each statement with hypotheses, states and operands that meet them, clause by clause -/

/-- A response is owed on the port. -/
def owing (p : Port) : State := serving.setPort p { serving.port p with owed := true }
def queued (p : Port) (output : List Frame) : State :=
  serving.setPort p { serving.port p with owed := true, output := output }
def storing : State := { resting with prof := { resting.prof with activity := .storing badImage } }
/-- Which job runs and which candidate waits. -/
def engine (running : Option Job) (waiting : Option Terms) (mode : CheckMode) : State :=
  { serving with prj := { serving.prj with running := running, waiting := waiting, checkMode := mode } }
def checking : State := engine (some (.check discharge (snapshot .stopped))) none .notify
def reviewing : State := engine (some (.review (snapshot .stopped))) none .notify
def waiting : State := engine (some (.review (snapshot .stopped))) (some discharge) .notify
def unclocked : State := { serving with tb := { serving.tb with clock := none } }
def atMillis (interval millis : Nat) : State :=
  { serving with tb := { serving.tb with clock := some { interval := interval, millis := millis } } }
/-- The count at `count`, `phase` milliseconds into its second, its tick open or not. -/
def atCount (count phase : Nat) (tickOpen : Bool) (s : State) : State :=
  { s with tb := { s.tb with count := BitVec.ofNat 48 count, phase := phase, tickOpen := tickOpen } }
def stale : State := { serving with inv := { serving.inv with metering := .stale } }
def faulted : State := { serving with prof := { serving.prof with mode := .faulted } }
def activity (mode : Mode) (a : Activity) : State := { serving with prof := { serving.prof with mode := mode, activity := a } }
def quiet : State := { serving with trc := { serving.trc with records := .of fun _ => ready } }
def noBook (s : State) : State := { s with book := { s.book with blocks := [] } }
def notice0 : Frame := .make 0xC0#8 []
def response0 : Frame := .make 0x81#8 []
/-- A review is pending. -/
def pendingReview (s : State) : State := { s with prj := { s.prj with pendingReview := true } }
/-- In SERVICE with every train STOPPED and no event due; `millis` into interval 50,001, `phase` into the second. -/
def calm (millis phase : Nat) : State :=
  { quiet with
    rsv := { serving.rsv with linkTimer := some 7220 }
    tb := { serving.tb with phase := phase, clock := some { interval := 50001, millis := millis } } }

theorem never_storing {s : State} (h : s.prof.activity = .idle) (source : Image) : s.prof.activity ≠ .storing source := by
  rw [h]
  exact nofun

theorem site_installed (c : Settings) (h : serving.settings = some c) (x : Train) : (c.trains.get x).installed = true := by
  cases (Option.some.inj h : site = c)
  cases x <;> decide +kernel

theorem calm_settled : (calm 5000 0).settled ∧ (calm 899999 998).settled ∧ (calm 899000 500).settled ∧
    (calm 899500 500).settled := by
  and_intros <;> first | rfl | (intro e; cases e <;> first | (rename_i x; cases x <;> decide +kernel) | decide +kernel)

/-- An event that is due is taken in the state as it stands. -/
theorem takenNow {s : State} {e : Event} (h : s.isDue e = true) : s.takenAt e s := .inl ⟨h, rfl⟩

/-- An event that falls due at the next tick is taken at its opening. -/
theorem takenNext {s : State} {e : Event} (h : s.isDue e = false) (o : s.tb.tickOpen = false)
    (n : (s.nextTick true).isDue e = true) : s.takenAt e (s.nextTick true) := .inr ⟨h, o, rfl, n⟩

/-- An event that is due neither now nor at the next tick is not taken. -/
theorem notTaken {s : State} {e : Event} (h : s.isDue e = false) (n : (s.nextTick true).isDue e = false) (u : State) :
    ¬ s.takenAt e u := by
  rintro (⟨h', -⟩ | ⟨-, -, rfl, h'⟩)
  · rw [h] at h'; cases h'
  · rw [n] at h'; cases h'

theorem witness_StepRunsTheFrontCommand :
    (serving.withPending [.poll, .abandon]).pending = .poll :: [.abandon] := rfl
theorem witness_IdleStepPassesAMillisecond :
    (calm 5000 0).pending = [] ∧ 1000 ≤ (calm 5000 999).tb.phase + 1 ∧ (calm 5000 0).settled ∧ (calm 5000 0).tb.phase + 1 < 1000 ∧
    (calm 5000 0).noBoundary 1 ∧ (calm 899999 998).settled ∧ (calm 899999 998).tb.phase + 1 < 1000 ∧
    (calm 899999 998).tb.clock = some { interval := 50001, millis := 899999 } ∧
    (calm 899999 998).cfg.intervalLength * 60000 ≤ 899999 + 1 := by
  refine ⟨rfl, by decide, calm_settled.1, by decide, ?_, calm_settled.2.1, by decide, rfl, by decide +kernel⟩
  intro c h
  cases (Option.some.inj h : ({ interval := 50001, millis := 5000 } : Clock) = c)
  decide +kernel
theorem witness_TicksEndTheSecond :
    (calm 5000 0).settled ∧ (calm 5000 0).noBoundary (1000 - 0) ∧
    ((calm 899000 500).settled ∧ (calm 899000 500).tb.phase = 500 ∧
      (calm 899000 500).cfg.intervalLength * 60000 = 900000 ∧ 899000 + (1000 - 500) < 900000) ∧
    ((calm 899999 998).settled ∧ (calm 899999 998).tb.clock = some { interval := 50001, millis := 899999 } ∧
      (calm 899999 998).cfg.intervalLength * 60000 < 899999 + (1000 - 998)) ∧
    ((calm 899500 500).settled ∧ (calm 899500 500).tb.clock = some { interval := 50001, millis := 899500 } ∧
      899500 + (1000 - 500) = (calm 899500 500).cfg.intervalLength * 60000) ∧
    (∀ u, ¬ (calm 5000 0).takenAt .dwell u) ∧ (∀ u, ¬ (atCount 7258 0 false (calm 5000 0)).takenAt .loss u) ∧
    (∀ u, ¬ (atCount 7259 0 true (calm 5000 0)).takenAt .loss u) := by
  refine ⟨calm_settled.1, ?_, ⟨calm_settled.2.2.1, rfl, by decide +kernel, by decide⟩,
    ⟨calm_settled.2.1, rfl, by decide +kernel⟩, ⟨calm_settled.2.2.2, rfl, by decide +kernel⟩,
    notTaken (by decide +kernel) (by decide +kernel), notTaken (by decide +kernel) (by decide +kernel), ?_⟩
  · intro c h
    cases (Option.some.inj h : ({ interval := 50001, millis := 5000 } : Clock) = c)
    decide +kernel
  · rintro u (⟨h, -⟩ | ⟨-, h, -⟩) <;> exact absurd h (by decide +kernel)
theorem witness_ResetsLeaveTheResetValues :
    9 < 10 ∧ 10 ≤ 10 ∧ ∀ source, serving.prof.activity ≠ .storing source := ⟨by decide, by decide, never_storing rfl⟩
theorem witness_ResetDuringAStoreLeavesAMixture : storing.prof.activity = .storing badImage ∧ 10 ≤ 10 ∧ 10 ≤ 25 :=
  ⟨rfl, by decide, by decide⟩
theorem witness_OutputPinsFollowTheState :
    serving.holdReset.resetHeld = true ∧ serving.resetHeld = false ∧ (serving.port .pp).output = [] ∧
    ((queued .tp [response0, notice0]).port .tp).output = response0 :: [notice0] := ⟨rfl, rfl, rfl, rfl⟩
/-- A port IN_FRAME with the bytes taken so far. -/
def inFrame (bytes : List Byte) (s : State) : State := s.setPort .gp { s.port .gp with assembler := .inFrame bytes }
set_option maxRecDepth 100000 in
theorem witness_DiscardedFramesAreCounted :
    120 < (121#8).toNat ∧
    ((List.replicate 120 7#8).length ≤ 120 ∧ 0#8 ≠ crc8 (0x10#8 :: BitVec.ofNat 8 (List.replicate 120 7#8).length :: List.replicate 120 7#8)) ∧
    (∃ t, exec (.frameDiscard .gp [.brk]) serving = .next t) ∧ (serving.port .gp).assembler = .waiting ∧
    ((inFrame [] serving).port .gp).assembler = .inFrame [] ∧
    (((inFrame [0x31#8] serving).port .gp).assembler = .inFrame [0x31#8] ∧
      [0x31#8] ++ [121#8] = 0x31#8 :: 121#8 :: [] ∧ [0x31#8] ++ [120#8] = 0x31#8 :: 120#8 :: [] ∧ 120 < (121#8).toNat ∧
      (120#8).toNat ≤ 120) ∧
    (((inFrame [0x31#8, 0#8] serving).port .gp).assembler = .inFrame [0x31#8, 0#8] ∧
      [0x31#8, 0#8] ++ [0x3E#8] = 0x31#8 :: 0#8 :: ([] ++ [0x3E#8]) ∧ 0x3E#8 = crc8 [0x31#8, 0#8] ∧ 0x3F#8 ≠ crc8 [0x31#8, 0#8] ∧
      ((inFrame [0x31#8, 0#8] serving).port .gp).owed = false ∧ ((inFrame [0x31#8, 0#8] (owing .gp)).port .gp).owed = true) ∧
    (Instr.poll.wellFormed = true ∧ requestOf .poll = some (.gp, 0x31#8, []) ∧ (Instr.unknownKind .gp 0x27#8).wellFormed = true ∧
      (Instr.badLength .gp 0x30#8 120#8).wellFormed = true) := by
  and_intros <;> first | rfl | exact ⟨_, rfl⟩ | decide +kernel
theorem witness_FramesWhileAResponseIsOwedAreDiscarded :
    ((owing .gp).port .gp).owed = true ∧ (requestOf .poll = some (.gp, 0x31#8, []) ∧ Instr.poll.wellFormed = true) ∧
    (Instr.unknownKind .gp 0x27#8).wellFormed = true ∧ (Instr.badLength .gp 0x30#8 120#8).wellFormed = true ∧
    ((owing .gp).port .gp).assembler = .waiting ∧ ((inFrame [0x31#8] (owing .gp)).port .gp).owed = true ∧
    ((inFrame [0x31#8] (owing .gp)).port .gp).assembler = .inFrame [0x31#8] := by
  and_intros <;> rfl
theorem witness_UnknownKindAndBadLengthAreAnswered :
    serving.free .gp ∧ catalogue .gp 0x27#8 = none ∧ catalogue .gp 0x30#8 = some 4 ∧ (120#8).toNat ≠ 4 ∧ (120#8).toNat ≤ 120 := by
  and_intros <;> first | rfl | decide
theorem witness_ResponseSentFreesThePort :
    (((queued .tp [notice0, response0, notice0]).port .tp).owed = true ∧
      ((queued .tp [notice0, response0, notice0]).port .tp).output = [notice0] ++ response0 :: [notice0] ∧
      (∀ f ∈ [notice0], f.kind = 0xC0#8) ∧ response0.kind ≠ 0xC0#8) ∧
    (∀ f ∈ ((queued .tp [notice0]).port .tp).output, f.kind = 0xC0#8) := by
  and_intros <;> first | rfl | decide
/-- Every statement whose one hypothesis is a free port. -/
theorem witness_free_ports : ∀ p, serving.free p := by intro p; cases p <;> exact ⟨rfl, rfl⟩
theorem witness_EveryRequestIsReceivedAsSent :
    Instr.poll.wellFormed = true ∧ encode .poll = some (.gp, [0x31#8, 0x00#8, 0x3E#8]) ∧
    Instr.wellFormed (.submit (offer 15 50009 1)) = true ∧ (encode (.submit (offer 15 50009 1))).isSome = true := by
  exact ⟨rfl, by decide +kernel, rfl, by decide +kernel⟩
theorem witness_MeterIsTakenOrRefused :
    serving.free .pp ∧ (∀ c, serving.settings = some c → (c.trains.get .c1).installed = true) ∧
    ((report 0 64 5101).trains.get .c1).status.toNat < 1 ∧ 5 < ((report 6 64 5101).trains.get .c1).status.toNat ∧
    250000 < (250001#32).toNat ∧ stale.inv.metering = .stale ∧
    ∀ x : Train, 1 ≤ ((report 1 64 5101).trains.get x).status.toNat ∧ ((report 5 64 5101).trains.get x).status.toNat ≤ 5 ∧
      ((report 1 64 5101).trains.get x).output.toNat ≤ 250000 := by
  refine ⟨⟨rfl, rfl⟩, fun c h => site_installed c h .c1, by decide, by decide, by decide, rfl, fun x => ?_⟩
  cases x <;> decide
/-- C1's baseline far below its totaliser: its delta is discarded; M at its bound, so that C2's saturates. -/
def extreme : State :=
  { serving with inv := { serving.inv with mass := 36000000, massBase := { serving.inv.massBase with c1 := some 4294900000#32 } } }
theorem witness_MeterMovesTheAccount :
    (serving.free .pp ∧ serving.meterValid (report 1 64 5101) = true ∧
      (∃ t, exec (.meter (report 1 64 5101)) serving = .next t) ∧
      serving.inv.status ≠ .unanchored ∧ serving.settings = some site) ∧
    (resting.free .pp ∧ resting.meterValid (report 5 0 0) = true ∧
      (∃ t, exec (.meter (report 5 0 0)) resting = .next t) ∧ resting.inv.status = .unanchored) ∧
    (State.reset.free .pp ∧ State.reset.meterValid (report 5 0 0) = true ∧
      (∃ t, exec (.meter (report 5 0 0)) State.reset = .next t) ∧ State.reset.settings = none) ∧
    (extreme.massAccount site (report 1 64 5101) = { value := 36000000, saturated := true, discarded := true } ∧
      serving.massAccount site (report 1 64 5101) = { value := 17000160, saturated := false, discarded := false } ∧
      (∃ t, exec (.meter (report 1 64 5101)) extreme = .next t)) := by
  and_intros <;> first | exact ⟨_, rfl⟩ | rfl | decide +kernel
/-- A METER that brings the drift count to the limit: TRACKING becomes DRIFTED. -/
def drifting : State := { serving with inv := { serving.inv with drift := 9 } }
theorem witness_DriftTestFollowsThePressure :
    drifting.free .pp ∧ drifting.meterValid (report 1 64 5121) = true ∧ drifting.inv.status ≠ .unanchored ∧
    drifting.settings = some site ∧ (∃ t, exec (.meter (report 1 64 5121)) drifting = .next t) ∧
    drifting.inv.status = .tracking ∧ (after (.meter (report 1 64 5121)) drifting).inv.drift = 10 ∧ site.driftLimit = 10 ∧
    (drifting.prj.running = none ∧ drifting.tb.clock = some { interval := 50001, millis := 5000 }) ∧
    (∃ t, exec (.meter (report 1 64 5101)) serving = .next t) := by
  and_intros <;> first | exact ⟨_, rfl⟩ | rfl | decide +kernel
theorem witness_AnchorSetsTheAccount :
    serving.free .pp ∧ serving.settings = some site ∧ serving.prof.mode = .service ∧ resting.prof.mode = .maintenance ∧
    State.reset.settings = none ∧ faulted.prof.mode = .faulted := ⟨⟨rfl, rfl⟩, rfl, rfl, rfl, rfl, rfl⟩
theorem witness_LossTickTakesRoundedDownLosses :
    (atCount 7260 0 true serving).takenAt .loss (atCount 7260 0 true serving) ∧
    (calm 5000 0 |> atCount 7259 0 false).takenAt .loss ((calm 5000 0 |> atCount 7259 0 false).nextTick true) ∧
    (atCount 7260 0 true resting).takenAt .loss (atCount 7260 0 true resting) ∧
    (atCount 7260 0 true resting).inv.status = .unanchored ∧ serving.inv.status ≠ .unanchored ∧ serving.settings = some site :=
  ⟨takenNow (by decide +kernel), takenNext (by decide +kernel) rfl (by decide +kernel), takenNow (by decide +kernel), rfl, by decide, rfl⟩
theorem witness_StaleOnsetStartsThePermitHold :
    (calm 5000 0 |> atCount 7215 0 false).takenAt .stale (calm 5000 0 |> atCount 7215 0 false) ∧
    (calm 5000 0 |> atCount 7214 300 false).takenAt .stale ((calm 5000 0 |> atCount 7214 300 false).nextTick true) ∧
    (State.reset.settings = none ∧ State.reset.settled) := by
  refine ⟨takenNow (by decide +kernel), takenNext (by decide +kernel) rfl (by decide +kernel), rfl, rfl, fun e => ?_⟩
  cases e <;> first | (rename_i x; cases x <;> decide +kernel) | decide +kernel
theorem witness_ReportedStatusesMoveTheTrains :
    serving.free .pp ∧ serving.meterValid (report 1 64 5101) = true ∧ (∃ t, exec (.meter (report 1 64 5101)) serving = .next t) ∧
    ((withTrain .e1 (inState .absent)).train .e1).state = .absent ∧ (serving.train .c3).state = .starting ∧
    Reported.ofCode ((report 3 64 5101).trains.get .c3).status = some .running ∧ (serving.train .c4).state = .stopping ∧
    (serving.train .e3).state = .tripped ∧ Reported.ofCode ((report 1 64 5101).trains.get .e3).status = some .stopped ∧
    Reported.ofCode ((report 1 64 5101).trains.get .c1).status = some .stopped ∧ (serving.train .c1).state = .running ∧
    (∃ t, exec (.meter (report 3 64 5101)) serving = .next t) ∧ (serving.train .c2).state = .locked ∧
    (serving.train .e1).state = .stopped ∧ Reported.ofCode ((report 1 64 5101).trains.get .e1).status = some .stopped := by
  and_intros <;> first | exact ⟨_, rfl⟩ | rfl
theorem witness_DeclarationsMoveTheTrain :
    serving.free .pp ∧ (Train.ofNumber 6#8 = some .e2 ∧ (serving.train .e2).state = .offline) ∧
    (Train.ofNumber 5#8 = some .e1 ∧ (serving.train .e1).state = .stopped) ∧
    (Train.ofNumber 1#8 = some .c1 ∧ (serving.train .c1).state ≠ .offline ∧ (serving.train .c1).state ≠ .stopped) ∧
    Train.ofNumber 0#8 = none ∧ Train.ofNumber 8#8 = none ∧ (3#8 ≠ 2#8 ∧ 3#8 ≠ 1#8) := by
  and_intros <;> first | rfl | decide
theorem witness_ReleaseNeedsCooldownAndLine :
    serving.free .pp ∧ (Train.ofNumber 2#8 = some .c2 ∧ (serving.train .c2).state = .locked) ∧
    (serving.train .c2).cooldown.expired = false ∧
    (((withTrain .c2 { locked 0 with cooldown := .ranOut }).train .c2).cooldown.expired = true ∧
      ((withTrain .c2 { locked 0 with cooldown := .ranOut }).train .c2).lineHigh = true) ∧
    (Train.ofNumber 7#8 = some .e3 ∧ (serving.train .e3).state ≠ .locked) ∧ Train.ofNumber 8#8 = none := by
  and_intros <;> first | rfl | decide
theorem witness_TrainReadShowsTheRecord :
    serving.free .pp ∧ Train.ofNumber 1#8 = some .c1 ∧ Train.ofNumber 7#8 = some .e3 ∧ Train.ofNumber 0#8 = none :=
  ⟨⟨rfl, rfl⟩, rfl, rfl, rfl⟩
theorem witness_TrainTimersRunOut :
    (∃ u, (withTrain .e1 { ready with minDown := .load 1 7210 }).takenAt (.minDown .e1) u) ∧
    (∃ u, (withTrain .c1 { running with minRun := .load 0 7210 }).takenAt (.minRun .c1) u) ∧
    (∃ u, serving.takenAt (.start .c3) u ∧ (u.train .c3).state = .starting) ∧
    (∃ u, serving.takenAt (.stop .c4) u ∧ (u.train .c4).state = .stopping) ∧
    (∃ u, (atCount 126399 999 false (withTrain .e1 { ready with history := [40000, 52000] })).takenAt (.prune .e1) u ∧
      (u.train .e1).history.Pairwise (· ≤ ·)) :=
  ⟨⟨_, takenNext (by decide +kernel) rfl (by decide +kernel)⟩, ⟨_, takenNow (by decide +kernel)⟩,
    ⟨_, takenNext (by decide +kernel) rfl (by decide +kernel), by decide +kernel⟩, ⟨_, takenNow (by decide +kernel), rfl⟩,
    ⟨_, takenNext (by decide +kernel) rfl (by decide +kernel), by decide +kernel⟩⟩
theorem witness_CooldownExpiryRaisesReleaseReady :
    (withTrain .c2 (locked 6610)).takenAt (.cooldown .c2) (withTrain .c2 (locked 6610)) ∧
    ((withTrain .c2 (locked 6610)).train .c2).state = .locked ∧ ((withTrain .c2 (locked 6610)).train .c2).releaseTaken = true ∧
    ((withTrain .c2 (locked 6610)).train .c2).lineHigh = true ∧
    (∃ u, (withTrain .c2 { locked 6611 with releaseTaken := false }).takenAt (.cooldown .c2) u ∧ (u.train .c2).state = .locked ∧
      (u.train .c2).releaseTaken = false) :=
  ⟨takenNow (by decide +kernel), rfl, rfl, rfl, _, takenNext (by decide +kernel) rfl (by decide +kernel), by decide +kernel,
    by decide +kernel⟩
theorem witness_PermitHoldExpiryTripsActiveTrains :
    (∃ u, ({ serving with trc := { serving.trc with permitHold := some 7210 } } : State).takenAt .permitHold u ∧
      (u.train .c1).state.active = true ∧ (u.train .e1).state.active = false) ∧
    (∃ u, ({ serving with trc := { serving.trc with permitHold := some 7211 } } : State).takenAt .permitHold u) :=
  ⟨⟨_, takenNow (by decide +kernel), rfl, rfl⟩, ⟨_, takenNext (by decide +kernel) rfl (by decide +kernel)⟩⟩
theorem witness_TripLineEdgesTripReloadAndRelease :
    (serving.train .e1).lineHigh = true ∧ (serving.train .e1).state = .stopped ∧ (serving.train .c1).state.active = true ∧
    (serving.train .c2).state = .locked ∧ (serving.train .e3).state = .tripped ∧ (serving.train .e2).state = .offline ∧
    (let s := withTrain .c2 { locked 0 with cooldown := .ranOut, lineHigh := false };
      (s.train .c2).lineHigh = false ∧ (s.train .c2).state = .locked ∧ (s.train .c2).sensitivity = .edgeAndLevel ∧
      (s.train .c2).cooldown.expired = true ∧ (s.train .c2).releaseTaken = true) ∧
    (let s := withTrain .c2 { locked 0 with lineHigh := false };
      (s.train .c2).lineHigh = false ∧ (s.train .c2).cooldown.expired = false) := by
  and_intros <;> rfl
theorem witness_ProfileFieldsAreReadAndWritten :
    serving.free .pp ∧ (1 ≤ (1#8).toNat ∧ (158#8).toNat ≤ 158) ∧ ¬ 1 ≤ (0#8).toNat ∧ ¬ (159#8).toNat ≤ 158 ∧
    storing.prof.activity = .storing badImage ∧ State.reset.prof.activity = .verifying .powerUp .neverWritten ∧ resting.prof.activity = .idle ∧ resting.prof.mode = .maintenance ∧
    (resting.book.blocks = [] ∧ resting.inFlight = none ∧ 30#32 ≠ resting.prof.working.word 2) ∧ serving.prof.mode ≠ .maintenance ∧
    ((activity .maintenance .idle).prof.mode = .maintenance ∧ (activity .maintenance .idle).book.blocks ≠ []) ∧
    (let s := noBook { waiting with prof := resting.prof };
      s.prof.mode = .maintenance ∧ s.book.blocks = [] ∧ s.inFlight ≠ none) := by
  and_intros <;> first | rfl | decide +kernel
theorem witness_StoreWritesTheTakenImage :
    resting.free .pp ∧ resting.prof.mode = .maintenance ∧ resting.prof.activity = .idle ∧ serving.prof.mode ≠ .maintenance ∧
    (storing.prof.mode = .maintenance ∧ storing.prof.activity = .storing badImage) ∧
    ∀ source, serving.prof.activity ≠ .storing source := ⟨⟨rfl, rfl⟩, rfl, rfl, by decide, ⟨rfl, rfl⟩, never_storing rfl⟩
theorem witness_ChecksStartOnTheWorkingImage :
    (resting.free .pp ∧ resting.prof.mode = .maintenance ∧ resting.prof.activity = .idle ∧ resting.book.blocks = [] ∧
      resting.inFlight = none) ∧
    (let s := { serving with prof := { resting.prof with stored := siteImage.write 2 30#32 } };
      s.prof.stored.word 2 ≠ s.prof.working.word 2 ∧ s.book.blocks ≠ [] ∧ (noBook s).book.blocks = []) ∧
    waiting.inFlight ≠ none ∧ (serving.prof.mode ≠ .checking ∧ serving.prof.mode ≠ .maintenance) ∧
    (storing.prof.mode = .maintenance ∧ storing.prof.activity ≠ .idle) := by
  and_intros <;> first | rfl | decide +kernel
/-- An ENTRY check that passes: C3 is not installed any more, C2 can be released, and the new L of 5 minutes has been reached. -/
def shrunkImage : Image := (((siteImage.write 2 5#32).write 87 0#32).write 158 32996#32)
def shrinking : State :=
  { serving with
    trc := { serving.trc with records := { serving.trc.records with c2 := { locked 0 with cooldown := .ranOut } } }
    tb := { serving.tb with clock := some { interval := 50001, millis := 300000 } }
    prof := { serving.prof with mode := .maintenance, activity := .verifying .entry shrunkImage } }
set_option maxRecDepth 100000 in
theorem witness_PassingCheckHandsOutItsValues :
    failingField siteImage = none ∧ State.reset.prof.mode = .checking ∧
    (activity .maintenance (.verifying .entry siteImage)).prof.activity = .verifying .entry siteImage ∧
    (activity .maintenance (.verifying .entry siteImage)).prof.mode = .maintenance ∧
    ({ State.reset with prof := .afterReset siteImage siteImage } : State).prof.activity = .verifying .powerUp siteImage ∧
    (State.reset.settings = none ∧ (State.reset.withRsv { State.reset.rsv with link := .linked }).rsv.link = .linked) ∧
    (serving.train .c1).state = .running ∧ (∀ x, (site.trains.get x).installed = true) ∧
    siteImage.field (trainField .c1 + 9) = 0 ∧ siteImage.field (trainField .c2 + 9) = 1 ∧ 5000 < siteImage.field 2 * 60000 ∧
    (shrinking.prof.activity = .verifying .entry shrunkImage ∧ shrinking.prof.mode = .maintenance ∧
      shrinking.tb.clock = some { interval := 50001, millis := 300000 } ∧
      shrinking.settings.map Settings.intervalLength ≠ some (shrunkImage.field 2) ∧ shrunkImage.field 2 * 60000 ≤ 300000 ∧
      ((Settings.ofImage shrunkImage).trains.get .c3).installed = false ∧ (shrinking.train .c3).state = .starting ∧
      (shrinking.train .c2).state = .locked ∧ (shrinking.train .c2).cooldown.expired = true ∧
      (shrinking.train .c2).releaseTaken = true ∧ (shrinking.train .c2).lineHigh = true) ∧ failingField shrunkImage = none := by
  refine ⟨test_site_passes, rfl, rfl, rfl, rfl, ⟨rfl, rfl⟩, rfl, site_installed site rfl, ?_⟩
  decide +kernel
theorem witness_FailingCheckFaultsService :
    failingField badImage = some 8 ∧ (activity .service (.verifying .plain badImage)).prof.activity = .verifying .plain badImage ∧
    (activity .service (.verifying .plain badImage)).prof.mode = .service ∧
    State.reset.prof.activity = .verifying .powerUp .neverWritten ∧ State.reset.prof.mode = .checking ∧
    ∀ purpose image, serving.prof.activity ≠ .verifying purpose image :=
  ⟨test_table_out_of_order_fails_at_its_field, rfl, rfl, rfl, rfl, fun _ _ => nofun⟩
theorem witness_PassedImagesAgree : failingField siteImage = none ∧ failingField badImage = some 8 :=
  ⟨test_site_passes, test_table_out_of_order_fails_at_its_field⟩
theorem witness_BackgroundCheckFollowsAMemoryFault :
    1 ≤ (1#8).toNat ∧ (158#8).toNat ≤ 158 ∧
    (∃ u, serving.takenAt .background u ∧ u.prof.mode = .service) ∧ resting.prof.background = none :=
  ⟨by decide, by decide, ⟨_, takenNext (by decide +kernel) rfl (by decide +kernel), by decide +kernel⟩, rfl⟩
theorem witness_MaintenanceIsEnteredAtRest :
    quiet.free .pp ∧ (quiet.prof.mode = .service ∧ ∀ x : Train, (quiet.train x).state.active = false) ∧
    (serving.prof.mode = .service ∧ (serving.train .c1).state.active = true) ∧ faulted.prof.mode = .faulted ∧
    State.reset.prof.mode = .checking ∧ resting.prof.mode = .maintenance := by
  refine ⟨⟨rfl, rfl⟩, ⟨rfl, fun x => ?_⟩, ⟨rfl, rfl⟩, rfl, rfl, rfl⟩
  cases x <;> rfl
theorem witness_ClockSetOpensThePartialRecord :
    serving.free .tp ∧ State.reset.settings = none ∧ serving.settings = some site ∧ serving.tb.clock ≠ none ∧
    unclocked.settings = some site ∧ unclocked.tb.clock = none ∧
    (1 ≤ (1#32).toNat ∧ (4000000000#32).toNat ≤ 4000000000 ∧ (899999#32).toNat < site.intervalLength * 60000) ∧
    ¬ (900000#32).toNat < site.intervalLength * 60000 ∧ unclocked.inv.status = .tracking ∧
    ({ unclocked with prj := { unclocked.prj with pendingReview := true } } : State).prj.pendingReview = true ∧
    unclocked.prj.running = none ∧ unclocked.prj.pendingReview = false := by
  and_intros <;> first | rfl | decide +kernel
theorem witness_ClockTrimMovesTheMilliseconds :
    serving.free .tp ∧ unclocked.tb.clock = none ∧ serving.tb.clock = some { interval := 50001, millis := 5000 } ∧
    (BitVec.ofInt 16 (-2001)).toInt < -2000 ∧ 2000 < (2001#16).toInt ∧ -2000 ≤ (BitVec.ofInt 16 (-2000)).toInt ∧
    (2000#16).toInt ≤ 2000 ∧ (5000 : Int) + (2000#16).toInt < serving.cfg.intervalLength * 60000 ∧
    ((atMillis 50001 898000).cfg.intervalLength * 60000 : Int) ≤ 898000 + (2000#16).toInt := by
  and_intros <;> first | rfl | decide +kernel
theorem witness_SubmitIsPreChecked :
    serving.free .tp ∧ resting.prof.mode ≠ .service ∧ serving.prof.mode = .service ∧ unclocked.tb.clock = none ∧
    serving.tb.clock = some { interval := 50001, millis := 5000 } ∧
    ({ serving with inv := .afterReset } : State).inv.status = .unanchored ∧ stale.inv.metering = .stale ∧
    serving.inv.status ≠ .unanchored ∧ serving.inv.metering = .fresh ∧ Terms.ofFields (offer 0 50009 1) = none ∧
    ([offer 15 50002 1, offer 15 50003 1, offer 15 50192 1, offer 15 50193 1, offer 15 50009 1].map fun f =>
      (Terms.ofFields f).map fun b => (b.first, b.last)) =
      [some (50002, 50002), some (50003, 50003), some (50192, 50192), some (50193, 50193), some (50009, 50009)] ∧
    50001 + serving.cfg.gateClosure = 50003 ∧ 50001 + 191 = 50192 ∧
    serving.book.blocks.map (fun b => (b.terms.reference, b.terms.first, b.terms.last)) = [(12, 50001, 50008), (13, 50010, 50011)] ∧
    64 ≤ (List.replicate 64 block13).length ∧ checking.inFlight ≠ none := by
  and_intros <;> first | rfl | decide +kernel
theorem witness_SubmitIsHandedOver :
    (∃ b, Terms.ofFields (offer 15 50009 1) = some b ∧ 50001 + serving.cfg.gateClosure ≤ b.first ∧ b.last ≤ 50001 + 191 ∧
      ∀ x ∈ serving.book.blocks, x.terms.overlaps b = false ∧ x.terms.reference ≠ b.reference) ∧
    serving.free .tp ∧ serving.prof.mode = .service ∧ serving.tb.clock = some { interval := 50001, millis := 5000 } ∧
    serving.inv.status ≠ .unanchored ∧ serving.inv.metering = .fresh ∧ serving.book.blocks.length < 64 ∧
    serving.inFlight = none ∧ serving.prj.checkMode = .hold ∧ reviewing.inFlight = none ∧ reviewing.prj.checkMode = .notify := by
  refine ⟨⟨(block 15 50009 1 .discharge 100000 20000 0).terms, ?_⟩, ⟨rfl, rfl⟩, rfl, rfl, ?_⟩ <;> decide +kernel
theorem book_in_order : serving.book.blocks.Pairwise Block.before := by
  simp [serving, block12, block13, block, Block.before, Terms.last]
theorem witness_WithdrawRemovesTheBlock :
    serving.free .tp ∧ (∀ x ∈ serving.book.blocks, x.terms.reference ≠ (14#16).toNat) ∧
    (block13 ∈ serving.book.blocks ∧ block13.terms.reference = (13#16).toNat ∧ block12 ∈ serving.book.blocks ∧
      block12.terms.reference = (12#16).toNat) ∧
    serving.book.blocks.Pairwise Block.before ∧ waiting.inFlight ≠ none ∧ serving.inFlight = none ∧
    block12.terms.first < (serving.tb.clock.map Clock.interval).getD 0 + serving.cfg.gateClosure ∧
    (serving.tb.clock.map Clock.interval).getD 0 + serving.cfg.gateClosure ≤ block13.terms.first := by
  refine ⟨⟨rfl, rfl⟩, ?_, ?_, book_in_order, ?_, rfl, ?_, ?_⟩ <;> decide +kernel
theorem witness_BoundaryClosesTheInterval :
    (calm 5000 0).settled ∧ unclocked.finishInstant.tb.clock = none ∧
    ((calm 899000 0).finishInstant.tb.clock = some { interval := 50001, millis := 899000 } ∧
      (calm 899000 0).finishInstant.tb.phase + ((calm 899000 0).finishInstant.cfg.intervalLength * 60000 - 899000) = 1000) ∧
    ((calm 899000 1).finishInstant.tb.clock = some { interval := 50001, millis := 899000 } ∧
      1000 < (calm 899000 1).finishInstant.tb.phase + ((calm 899000 1).finishInstant.cfg.intervalLength * 60000 - 899000)) := by
  refine ⟨calm_settled.1, ?_⟩
  decide +kernel
theorem witness_ReadingRequestsShowTheTradeState :
    serving.free .tp ∧ 63 < (64#8).toNat ∧ ((63#8).toNat ≤ 63 ∧ serving.book.blocks[(63#8).toNat]? = none) ∧
    serving.book.blocks[(1#8).toNat]? = some block13 ∧ resting.inv.status = .unanchored ∧ serving.inv.status = .tracking ∧
    ({ serving with inv := { serving.inv with status := .drifted } } : State).inv.status = .drifted ∧
    (0#32).toNat = 0 ∧ 4000000000 < (4000000001#32).toNat ∧ (4000000000#32).toNat ≤ 4000000000 ∧
    (∀ r ∈ serving.slog.ring, r.opened.interval ≠ (1#32).toNat) ∧
    (after .intervalBoundary (calm 899500 0)).slog.ring.map (fun r => r.opened.interval) = [(50001#32).toNat] ∧
    (site.tiers.get .t1).qDischarge ≠ 0 := by
  and_intros <;> decide +kernel
theorem witness_CheckModeAndAbandonAreAnswered :
    serving.free .tp ∧ CheckMode.ofCode 0#8 = some .hold ∧ CheckMode.ofCode 1#8 = some .notify ∧ serving.inFlight = none ∧
    1 < (2#8).toNat ∧ waiting.inFlight ≠ none ∧
    (checking.inFlight = some discharge ∧ checking.prj.checkMode = .notify ∧ checking.prj.waiting = none ∧
      checking.prj.running = some (.check discharge (snapshot .stopped)) ∧ checking.prj.pendingReview = false) ∧
    (waiting.inFlight = some discharge ∧ waiting.prj.running = some (.review (snapshot .stopped))) ∧
    ((pendingReview checking).prj.pendingReview = true ∧ (pendingReview checking).inFlight = some discharge ∧
      (pendingReview checking).inv.status ≠ .unanchored ∧
      (pendingReview checking).tb.clock = some { interval := 50001, millis := 5000 }) := by
  and_intros <;> first | rfl | decide
/-- The check of section 2.9 in flight while the book holds its one block. -/
def admitting : State :=
  { checking with book := { blocks := [block 1 50001 1 .charge 90000 0 0], revision := 40#16 } }
theorem witness_CheckCompletionAdmitsOrEnds :
    (admitting.prj.running = some (.check discharge (snapshot .stopped)) ∧ admitting.prj.pendingReview = false ∧
      (pendingReview admitting).prj.running = some (.check discharge (snapshot .stopped)) ∧
      (pendingReview admitting).prj.pendingReview = true ∧ (pendingReview admitting).BookSafe) ∧ admitting.BookSafe := by
  have h : admitting.BookSafe := ?_
  · exact ⟨⟨rfl, rfl, rfl, rfl, ⟨h.ordered, h.lengths, h.size, h.oneCheck, h.candidate⟩⟩, h⟩
  refine ⟨?_, ?_, ?_, ?_, ?_⟩
  · simp [admitting]
  · simp [admitting, block]
  · decide
  · exact nofun
  · intro c h
    cases (Option.some.inj h : discharge = c)
    decide
theorem witness_ReviewCompletionMarksTheBook :
    reviewing.prj.running = some (.review (snapshot .stopped)) ∧ (∀ snap, serving.prj.running ≠ some (.review snap)) ∧
    (∀ b snap, reviewing.prj.running ≠ some (.check b snap)) ∧ reviewing.prj.waiting = none ∧
    reviewing.prj.pendingReview = false ∧ waiting.prj.waiting = some discharge ∧
    waiting.tb.clock = some { interval := 50001, millis := 5000 } ∧
    (({ waiting with tb := { waiting.tb with clock := none } } : State).tb.clock = none ∧ waiting.prj.checkMode = .notify ∧
      ({ waiting with prj := { waiting.prj with checkMode := .hold } } : State).prj.checkMode = .hold) ∧
    ((pendingReview reviewing).prj.running = some (.review (snapshot .stopped)) ∧ (pendingReview reviewing).prj.pendingReview = true ∧
      (pendingReview reviewing).inv.status ≠ .unanchored ∧
      (pendingReview reviewing).tb.clock = some { interval := 50001, millis := 5000 }) :=
  ⟨rfl, fun _ => nofun, fun _ _ => nofun, rfl, rfl, rfl, rfl, ⟨rfl, rfl, rfl⟩, rfl, rfl, by decide, rfl⟩
theorem witness_ProjectionIntervalFollowsItsRules : 0 < 5 * 60000 ∧ 299999 < 5 * 60000 := by decide
/-- The intervals of the walk of section 2.9 are covered by its two blocks and by none; the walk of section 2.9.1 fails at 50,003. -/
def covering (j : Nat) : Terms := coverOf [charge, discharge] j
/-- The projected values of that walk. -/
def projected (e2 : TrainState) : Nat → Projected
  | 0 => { mass := 17000000, heat := ⟨600000, 300000, 100000⟩ }
  | i + 1 => walkInterval site (covering (50000 + i)) 15 (projected e2 i)
theorem witness_WalkReportsTheFirstFailure :
    (∀ j, ∀ b ∈ (snapshot .tripped).book ++ [discharge], b.first ≤ j → j ≤ b.last → covering j = b) ∧
    (∀ j, (∀ b ∈ (snapshot .tripped).book ++ [discharge], ¬ (b.first ≤ j ∧ j ≤ b.last)) → covering j = .uncovered) ∧
    remainingMinutes site.intervalLength 0 = 15 ∧ site.intervalLength = 15 ∧
    (snapshot .tripped).walk (some discharge) = some { interval := 50000 + 3, reason := .power, tier := 0 } := by
  have hb : ∀ b ∈ (snapshot .tripped).book ++ [discharge], b = charge ∨ b = discharge := by
    intro b h; simpa [snapshot] using h
  have hc : charge.first = 50001 ∧ charge.last = 50001 := by decide
  have hd : discharge.first = 50003 ∧ discharge.last = 50004 := by decide
  refine ⟨?_, ?_, by decide +kernel, by decide +kernel, test_walk_finds_the_tripped_turbine⟩
  · intro j b h h1 h2
    rcases hb b h with rfl | rfl
    · have : j = 50001 := by omega
      subst this; decide
    · have : j = 50003 ∨ j = 50004 := by omega
      rcases this with rfl | rfl <;> decide
  · intro j h
    have h1 := h charge (by decide)
    have h2 := h discharge (by decide)
    simp only [covering, coverOf, List.find?, Terms.covers]
    have e1 : (decide (charge.first ≤ j) && decide (j ≤ charge.last)) = false := by simpa using h1
    have e2 : (decide (discharge.first ≤ j) && decide (j ≤ discharge.last)) = false := by simpa using h2
    rw [e1, e2]; rfl
theorem witness_ActivateAndPollAreAnswered :
    serving.free .gp ∧ serving.prof.mode = .service ∧ resting.prof.mode ≠ .service := ⟨⟨rfl, rfl⟩, rfl, by decide⟩
theorem witness_LinkLossHoldsTheGrant :
    serving.takenAt .linkLoss serving ∧
    (∃ u, (atCount 7219 0 false (calm 5000 0)).takenAt .linkLoss u) ∧
    (∃ u, ({ serving with rsv := { serving.rsv with linkTimer := none, holdTimer := some 7211 } } : State).takenAt .activationHold u) ∧
    resting.rsv.linkTimer = none ∧ serving.rsv.holdTimer = none :=
  ⟨takenNow (by decide +kernel), ⟨_, takenNext (by decide +kernel) rfl (by decide +kernel)⟩,
    ⟨_, takenNext (by decide +kernel) rfl (by decide +kernel)⟩, rfl, rfl⟩
theorem witness_DispatchTickTakesASecond :
    ((atCount 7210 0 true serving).tb.tickOpen = true ∧ serving.tb.tickOpen = false) ∧
    (∃ r, serving.tickInstant.slog.current = some r) ∧ resting.tickInstant.slog.current = none ∧
    resting.tickInstant.prof.mode ≠ .service ∧ ((atCount 7210 0 true stale).tickInstant.prof.mode = .service ∧
      (atCount 7210 0 true stale).tickInstant.inv.metering = .stale) ∧
    (∃ u, ({ serving with du := { serving.du with dwell := some 7211 } } : State).takenAt .dwell u) ∧ serving.du.dwell = none := by
  refine ⟨⟨rfl, rfl⟩, ?_, by decide +kernel, by decide +kernel, ⟨rfl, rfl⟩,
    ⟨_, takenNext (by decide +kernel) rfl (by decide +kernel)⟩, rfl⟩
  exact Option.isSome_iff_exists.mp (by decide +kernel)
theorem settings_from_the_site (s : State) (h : s.settings = some site) : s.SettingsSafe := by
  intro c hc
  cases (Option.some.inj (h.symm.trans hc) : site = c)
  exact ⟨siteImage, test_site_passes, rfl⟩
theorem witness_ComputingTickFormsTheTarget :
    turning.tickInstant.prof.mode = .service ∧ turning.tickInstant.inv.metering = .fresh ∧
    turning.tickInstant.du.previous < 0 ∧ (turning.tickInstant.train .c1).state.active = true ∧
    (∃ r, turning.tickInstant.slog.current = some r) := by
  refine ⟨by decide +kernel, by decide +kernel, by decide +kernel, by decide +kernel, ?_⟩
  exact Option.isSome_iff_exists.mp (by decide +kernel)
/-- With E1 RUNNING and demand for both turbines a train is started; with C1 and C2 RUNNING and no demand the last is stopped. -/
def rising : State :=
  { turning with
    trc := { turning.trc with records := ⟨ready, ready, ready, ready, running, ready, ready⟩ }
    du := { turning.du with previous := 60000 } }
theorem witness_AllocationStartsAndStopsTrains :
    (rising.SettingsSafe ∧ turning.SettingsSafe) ∧ (rising.tickInstant.prof.mode = .service ∧ rising.tickInstant.inv.metering = .fresh ∧
      (after .dispatchTick rising).du.working = 120000 ∧ ((after .dispatchTick rising).train .e2).state = .starting) ∧
    (turning.tickInstant.prof.mode = .service ∧ turning.tickInstant.inv.metering = .fresh ∧
      (after .dispatchTick turning).du.working = 0 ∧ ((after .dispatchTick turning).train .c2).state = .stopping) := by
  refine ⟨⟨settings_from_the_site rising rfl, settings_from_the_site turning rfl⟩, ?_⟩
  decide +kernel
theorem witness_SetpointsShareTheTarget :
    rising.SettingsSafe ∧ rising.settings ≠ none ∧ rising.tickInstant.prof.mode = .service ∧
    rising.tickInstant.inv.metering = .fresh ∧ (∃ r, rising.tickInstant.slog.current = some r) := by
  refine ⟨settings_from_the_site rising rfl, nofun, by decide +kernel, by decide +kernel, ?_⟩
  exact Option.isSome_iff_exists.mp (by decide +kernel)
theorem witness_TableValuesAreInterpolated :
    failingField siteImage = none ∧ 5999999 < siteImage.field (6 + 0) ∧ siteImage.field (6 + 15) < 36000001 ∧
    (siteImage.field (6 + 4) ≤ 16000000 ∧ 16000000 ≤ siteImage.field (6 + 5)) ∧
    1799 < siteImage.field (22 + 0) ∧ siteImage.field (22 + 15) < 11701 ∧
    (siteImage.field (22 + 5) ≤ 5100 ∧ 5100 ≤ siteImage.field (22 + 6)) := by
  refine ⟨test_site_passes, ?_⟩
  decide +kernel

/-- `serving` meets the five invariants, and a step leads on from it. -/
theorem witness_StepsKeepTheInventoryInBounds : serving.InventorySafe ∧ ∃ t, step serving = .next t := by
  refine ⟨⟨settings_from_the_site serving rfl, nofun, ?_, ?_⟩, _, rfl⟩
  · intro c h
    cases (Option.some.inj h : site = c)
    decide +kernel
  · intro c k h
    cases (Option.some.inj h : site = c)
    cases k <;> decide +kernel
theorem witness_StepsKeepTheScheduleInOrder : serving.ScheduleSafe ∧ ∃ t, step serving = .next t := by
  refine ⟨⟨⟨book_in_order, ?_, by decide, nofun, nofun⟩, ⟨by decide, .nil, rfl, ?_⟩,
    ⟨settings_from_the_site serving rfl, fun _ => rfl, by decide, by decide, ?_⟩⟩, _, rfl⟩
  · simp [serving, block12, block13, block]
  · intro c _ r hr
    cases hr
  · intro h
    exact absurd rfl h
theorem witness_StepsKeepTheTrainsSafe : serving.DispatchSafe ∧ ∃ t, step serving = .next t := by
  refine ⟨⟨settings_from_the_site serving rfl, ⟨?_, ?_, fun _ _ => rfl⟩, ?_, ?_, fun h => absurd rfl h, ?_, ?_⟩, _, rfl⟩
  · intro a b h; cases a <;> cases b <;> first | exact absurd rfl h | exact fun _ => rfl | exact nofun
  · intro a b h ha hb; cases a <;> cases b <;> first | rfl | (cases hb; done) | cases ha
  · exact fun h => absurd h (by decide)
  · intro _ x h; cases x <;> first | rfl | cases h
  · intro x h; cases x <;> first | decide +kernel | cases h
  · intro x h; cases x <;> first | exact absurd rfl h | rfl
theorem witness_StepsKeepOneResponsePerFrame : serving.PortsSafe ∧ ∃ t, step serving = .next t := by
  refine ⟨⟨?_, ?_, ?_, nofun, nofun, fun _ => rfl, fun _ => rfl, nofun, rfl⟩, _, rfl⟩
  · intro p f hf; cases p <;> cases hf
  · intro p _; cases p <;> rfl
  · intro p; cases p <;> decide
theorem witness_StepsKeepTheTimersOnTime :
    serving.TimeSafe ∧ serving.now + 1 < 2 ^ 48 ∧ ∃ t, step serving = .next t := by
  refine ⟨⟨settings_from_the_site serving rfl, nofun, by decide, nofun, ?_, ?_, by decide, fun _ => rfl, ?_, ?_, by decide⟩,
    by decide, _, rfl⟩
  · intro e due h
    have all : ∀ e, (match serving.dueAt e with | none => true | some due => decide (serving.now ≤ due)) = true := by
      intro e
      cases e <;> first | (rename_i x; cases x <;> decide +kernel) | decide +kernel
    simpa [h] using all e
  · exact fun h => absurd h (by decide)
  · intro c h
    cases (Option.some.inj h : ({ interval := 50001, millis := 5000 } : Clock) = c)
    decide +kernel
  · intro x; cases x <;> decide

end Sys2Proof.Tests
end

