-- ==== Sys2Proof/Proofs/TableReading.lean ====
section
/-! The pressure table of a passed image: its masses and pressures rise from point to point, and reading a table with rising
keys clamps at both ends and interpolates in the smallest segment between (R23, R24). -/

namespace Sys2Proof.Proofs
open Sys2Proof Sys2Proof.Machine

/-! ### What a passing check says of the table's fields (R158) -/

/-- A check that finds no failing field accepts each field. -/
theorem fieldOk_of_failingField_eq_none {image : Image} (passed : failingField image = none) {id : Nat}
    (first : 1 ≤ id) (last : id ≤ fieldCount) : fieldOk image id = true := by
  have accepted := List.find?_eq_none.mp passed id (List.mem_range'_1.mpr ⟨first, by omega⟩)
  simpa using accepted

/-- Fields 7 to 21: an accepted mass is above the mass before it. -/
theorem field_pred_lt_of_mass_fieldOk {image : Image} {id : Nat} (lo : 7 ≤ id) (hi : id ≤ 21)
    (ok : fieldOk image id = true) : image.field (id - 1) < image.field id := by
  have rule : fieldOk image id =
      (inRange 0 4000000000 (image.field id) && decide (image.field (id - 1) < image.field id)) := by
    unfold fieldOk
    rw [if_neg, if_neg, if_neg, if_neg, if_neg, if_neg, if_pos hi] <;> omega
  rw [rule, Bool.and_eq_true] at ok
  exact of_decide_eq_true ok.2

/-- Fields 23 to 37: an accepted pressure is above the pressure before it. -/
theorem field_pred_lt_of_pressure_fieldOk {image : Image} {id : Nat} (lo : 23 ≤ id) (hi : id ≤ 37)
    (ok : fieldOk image id = true) : image.field (id - 1) < image.field id := by
  have rule : fieldOk image id =
      (inRange 1 65535 (image.field id) && decide (image.field (id - 1) < image.field id)) := by
    unfold fieldOk
    rw [if_neg, if_neg, if_neg, if_neg, if_neg, if_neg, if_neg, if_neg, if_pos hi] <;> omega
  rw [rule, Bool.and_eq_true] at ok
  exact of_decide_eq_true ok.2

/-- Point `i` of the table of an image. -/
def tablePoint (image : Image) (i : Nat) : TablePoint := { mass := image.field (6 + i), pressure := image.field (22 + i) }

theorem masses_strictMonoOn {image : Image} (passed : failingField image = none) :
    StrictMonoOn (fun i => (tablePoint image i).mass) (Set.Iic 15) := by
  refine strictMonoOn_of_lt_succ Set.ordConnected_Iic fun i _ _ hi => ?_
  replace hi : i + 1 ≤ 15 := hi
  exact field_pred_lt_of_mass_fieldOk (id := 6 + (i + 1)) (by omega) (by omega)
    (fieldOk_of_failingField_eq_none passed (by omega) (by unfold fieldCount; omega))

theorem pressures_strictMonoOn {image : Image} (passed : failingField image = none) :
    StrictMonoOn (fun i => (tablePoint image i).pressure) (Set.Iic 15) := by
  refine strictMonoOn_of_lt_succ Set.ordConnected_Iic fun i _ _ hi => ?_
  replace hi : i + 1 ≤ 15 := hi
  exact field_pred_lt_of_pressure_fieldOk (id := 22 + (i + 1)) (by omega) (by omega)
    (fieldOk_of_failingField_eq_none passed (by omega) (by unfold fieldCount; omega))

/-! ### Reading a table -/

/-- The `n` points from point `k` on. -/
def pointsFrom (pt : Nat → TablePoint) (k n : Nat) : List TablePoint := (List.range' k n).map pt

theorem pointsFrom_succ (pt : Nat → TablePoint) (k n : Nat) :
    pointsFrom pt k (n + 1) = pt k :: pointsFrom pt (k + 1) n := by
  simp [pointsFrom, List.range'_succ]

/-- The table that the settings take from an image is its sixteen points. -/
theorem ofImage_table (image : Image) : (Settings.ofImage image).table = pointsFrom (tablePoint image) 0 16 := by
  simp [Settings.ofImage, Image.table, pointsFrom, tablePoint, List.range_eq_range']

section Interpolation
variable (key val : TablePoint → Nat) (pt : Nat → TablePoint) {x : Nat}

/-- The value interpolated in the segment from point `i` to the next, rounded down. -/
def segmentValue (x i : Nat) : Nat :=
  val (pt i) + (x - key (pt i)) * (val (pt (i + 1)) - val (pt i)) / (key (pt (i + 1)) - key (pt i))

/-- The last point alone gives its own value. -/
theorem interpolate_pointsFrom_one (k : Nat) : interpolate key val x (pointsFrom pt k 1) = val (pt k) := rfl

/-- A segment whose end is at or above the value is the one that gives it. -/
theorem interpolate_of_le_next {k : Nat} (n : Nat) (le : x ≤ key (pt (k + 1))) :
    interpolate key val x (pointsFrom pt k (n + 2)) = segmentValue key val pt x k := by
  rw [pointsFrom_succ, pointsFrom_succ, interpolate, if_pos le, segmentValue]

/-- A segment whose end is below the value is passed over. -/
theorem interpolate_of_next_lt {k : Nat} (n : Nat) (lt : key (pt (k + 1)) < x) :
    interpolate key val x (pointsFrom pt k (n + 2)) = interpolate key val x (pointsFrom pt (k + 1) (n + 1)) := by
  rw [pointsFrom_succ, pointsFrom_succ, interpolate, if_neg (Nat.not_le.mpr lt)]

/-- So are all the segments whose ends are below the value. -/
theorem interpolate_skip (n i : Nat) (below : ∀ j, j < i → key (pt (j + 1)) < x) :
    interpolate key val x (pointsFrom pt 0 (i + n + 1)) = interpolate key val x (pointsFrom pt i (n + 1)) := by
  induction i generalizing n with
  | zero => rw [Nat.zero_add]
  | succ i ih =>
    calc interpolate key val x (pointsFrom pt 0 (i + 1 + n + 1))
        = interpolate key val x (pointsFrom pt 0 (i + (n + 1) + 1)) := by rw [Nat.add_right_comm i 1 n, Nat.add_assoc i n 1]
      _ = interpolate key val x (pointsFrom pt i (n + 2)) := ih (n + 1) fun j hj => below j (by omega)
      _ = interpolate key val x (pointsFrom pt (i + 1) (n + 1)) :=
          interpolate_of_next_lt key val pt n (below i (Nat.lt_succ_self i))

/-- Below the first point the first point's value stands. -/
theorem readTable_of_lt_first (n : Nat) (lt : x < key (pt 0)) :
    readTable key val (pointsFrom pt 0 (n + 1)) x = val (pt 0) := by
  rw [pointsFrom_succ, readTable, if_pos lt]

/-- From the first point on the table is interpolated. -/
theorem readTable_of_first_le (n : Nat) (le : key (pt 0) ≤ x) :
    readTable key val (pointsFrom pt 0 (n + 1)) x = interpolate key val x (pointsFrom pt 0 (n + 1)) := by
  rw [pointsFrom_succ, readTable, if_neg (Nat.not_lt.mpr le)]

variable {key pt} {n : Nat} (rising : StrictMonoOn (fun i => key (pt i)) (Set.Iic n))
include rising

theorem key_le_key {i j : Nat} (le : i ≤ j) (last : j ≤ n) : key (pt i) ≤ key (pt j) :=
  rising.monotoneOn (le.trans last) last le

/-- Above the last point the last point's value stands. -/
theorem readTable_of_last_lt (lt : key (pt n) < x) : readTable key val (pointsFrom pt 0 (n + 1)) x = val (pt n) := by
  have below (j : Nat) (hj : j ≤ n) : key (pt j) < x := (key_le_key rising hj le_rfl).trans_lt lt
  rw [readTable_of_first_le key val pt n (below 0 n.zero_le).le]
  exact (interpolate_skip key val pt 0 n fun j hj => below (j + 1) hj).trans (interpolate_pointsFrom_one key val pt n)

/-- In the smallest segment that holds the value it is interpolated: the earlier segments start at or below the value and do not
hold it, so they end below it. -/
theorem readTable_of_mem_segment {i : Nat} (inside : i < n) (lo : key (pt i) ≤ x) (hi : x ≤ key (pt (i + 1)))
    (smallest : ∀ j, j < i → ¬ (key (pt j) ≤ x ∧ x ≤ key (pt (j + 1)))) :
    readTable key val (pointsFrom pt 0 (n + 1)) x = segmentValue key val pt x i := by
  have starts (j : Nat) (hj : j ≤ i) : key (pt j) ≤ x := (key_le_key rising hj inside.le).trans lo
  have ends (j : Nat) (hj : j < i) : key (pt (j + 1)) < x :=
    Nat.not_le.mp fun le => smallest j hj ⟨starts j hj.le, le⟩
  obtain ⟨rest, rfl⟩ := Nat.exists_eq_add_of_lt inside
  rw [readTable_of_first_le key val pt _ (starts 0 i.zero_le)]
  exact (interpolate_skip key val pt (rest + 1) i ends).trans (interpolate_of_le_next key val pt rest hi)

end Interpolation

/-- A value between the first and the last of a sequence lies between two neighbours. -/
theorem exists_segment {a : Nat → Nat} {x : Nat} (first : a 0 ≤ x) (n : Nat) (last : x ≤ a (n + 1)) :
    ∃ i, i ≤ n ∧ a i ≤ x ∧ x ≤ a (i + 1) := by
  induction n with
  | zero => exact ⟨0, le_rfl, first, last⟩
  | succ n ih =>
    rcases le_or_gt x (a (n + 1)) with le | lt
    · obtain ⟨i, hi, segment⟩ := ih le
      exact ⟨i, hi.trans n.le_succ, segment⟩
    · exact ⟨n + 1, le_rfl, lt.le, last⟩

/-- What R23 and R24 say of a table of sixteen points with rising keys. -/
theorem readTable_clamped_and_interpolated {key : TablePoint → Nat} (val : TablePoint → Nat) {pt : Nat → TablePoint}
    (rising : StrictMonoOn (fun i => key (pt i)) (Set.Iic 15)) (x : Nat) :
    (x < key (pt 0) → readTable key val (pointsFrom pt 0 16) x = val (pt 0)) ∧
    (key (pt 15) < x → readTable key val (pointsFrom pt 0 16) x = val (pt 15)) ∧
    (∀ i, i ≤ 14 → key (pt i) ≤ x → x ≤ key (pt (i + 1)) →
      (∀ j, j < i → ¬ (key (pt j) ≤ x ∧ x ≤ key (pt (j + 1)))) →
      readTable key val (pointsFrom pt 0 16) x = segmentValue key val pt x i) ∧
    (key (pt 0) ≤ x → x ≤ key (pt 15) → ∃ i, i ≤ 14 ∧ key (pt i) ≤ x ∧ x ≤ key (pt (i + 1))) :=
  ⟨readTable_of_lt_first key val pt 15, readTable_of_last_lt val rising,
    fun _ inside lo hi smallest => readTable_of_mem_segment val rising (Nat.lt_succ_of_le inside) lo hi smallest,
    fun first last => exists_segment (a := fun i => key (pt i)) first 14 last⟩

/-- Settles O54: the keys of either reading rise over a passed image, and a table with rising keys is read as R23 and R24 say. -/
theorem tableValuesAreInterpolated : Obligations.TableValuesAreInterpolated := by
  intro image passed
  dsimp only
  rw [ofImage_table]
  exact ⟨readTable_clamped_and_interpolated TablePoint.pressure (masses_strictMonoOn passed),
    readTable_clamped_and_interpolated TablePoint.mass (pressures_strictMonoOn passed)⟩

end Sys2Proof.Proofs
end

section
/-! A train's release and the edges of its trip input (R101, R103, R106, R107): what the release test does to a record just written,
what each edge does by the train's state, and what the RELEASE request adds to it. -/

namespace Sys2Proof.Proofs
open Sys2Proof Sys2Proof.Machine

/-! ### A train that enters or leaves the unavailable set (R111) -/

theorem setTrain_setTrain (s : State) (x : Train) (r q : TrainRecord) : (s.setTrain x r).setTrain x q = s.setTrain x q :=
  congrArg (fun v => s.withTrc { s.trc with records := v }) (PerTrain.set_set s.trc.records x r q)

section Move
variable (s : State) (x : Train) (r : TrainRecord)

theorem setTrain_changeAvailability_trc :
    (s.setTrain x r).changeAvailability.trc =
      { records := s.trc.records.set x r, generation := s.trc.generation + 1, permitHold := s.trc.permitHold } :=
  changeAvailability_trc _

theorem setTrain_changeAvailability_raisedOnly : s.raisedOnly (s.setTrain x r).changeAvailability .tp .capacity :=
  (changeAvailability_port _ .tp).trans (port_raise _ .tp .capacity)

theorem setTrain_changeAvailability_reviewRequested : s.reviewRequested (s.setTrain x r).changeAvailability :=
  changeAvailability_review (s := s.setTrain x r)

theorem setTrain_changeAvailability_frame : s.onlyChanges (s.setTrain x r).changeAvailability [.trc, .prj, .tp] :=
  onlyChanges_trans (onlyChanges_mono (setTrain_frame s x r) (by decide))
    (onlyChanges_mono (changeAvailability_frame _) (by decide))

theorem train_setTrain_changeAvailability : (s.setTrain x r).changeAvailability.train x = r := by
  unfold State.train
  rw [setTrain_changeAvailability_trc]
  exact PerTrain.get_set_self _ _ _

theorem port_setTrain_changeAvailability_ne {p : Port} (ne : p ≠ .tp) :
    (s.setTrain x r).changeAvailability.port p = s.port p :=
  (changeAvailability_port _ p).trans (port_raise_ne _ .tp p .capacity ne)

end Move

/-! ### The release test (R107) -/

/-- The record of a train that is released: STOPPED as though min-down had run out, with no reason (R89, R107). -/
def released (r : TrainRecord) : TrainRecord :=
  { r.leave with state := .stopped, minDown := .ranOut, releaseTaken := false, reason := none }

/-- The three conditions of R107, for a train that is LOCKED. -/
theorem releasable_iff {r : TrainRecord} (locked : r.state = .locked) :
    r.releasable = true ↔
      r.cooldown.expired = true ∧ r.releaseTaken = true ∧ (r.sensitivity = .edgeAndLevel → r.lineHigh = true) := by
  unfold TrainRecord.releasable
  cases sensitivity : r.sensitivity <;> simp [locked, and_assoc]

theorem tryRelease_setTrain_of_releasable (s : State) (x : Train) {r : TrainRecord} (h : r.releasable = true) :
    (s.setTrain x r).tryRelease x = (s.setTrain x (released r)).changeAvailability := by
  unfold State.tryRelease
  rw [train_setTrain_self, if_pos h, setTrain_setTrain, released]

theorem tryRelease_setTrain_of_not_releasable (s : State) (x : Train) {r : TrainRecord} (h : ¬ r.releasable = true) :
    (s.setTrain x r).tryRelease x = s.setTrain x r := by
  unfold State.tryRelease
  rw [train_setTrain_self, if_neg h]

/-! ### The edges of a trip input (R100, R101, R103) -/

/-- The record with the level of the trip input as sampled at an edge (R100). -/
def atLevel (r : TrainRecord) (high : Bool) : TrainRecord := { r with lineHigh := high }

section Edges
variable {s : State} {x : Train}

/-- What a falling edge does beside recording the level, by the train's state (R101). -/
theorem fallingEdge_eq :
    s.fallingEdge x =
      if (s.train x).state = .stopped ∨ (s.train x).state.active = true then
        (s.setTrain x (atLevel (s.train x) false)).trip x .tripLine
      else if (s.train x).state = .locked then
        s.setTrain x
          { atLevel (s.train x) false with cooldown := .load (s.trainCfg x).cooldown s.now, releaseTaken := false }
      else s.setTrain x (atLevel (s.train x) false) := by
  unfold State.fallingEdge
  dsimp only
  split
  case h_1 state | h_2 state | h_3 state | h_4 state => exact (if_pos (by rw [state]; decide)).symm
  case h_5 state =>
    rw [if_neg (by rw [state]; decide), if_pos state]
    exact setTrain_setTrain s x _ _
  case h_6 state | h_7 state | h_8 state =>
    rw [if_neg (by rw [state]; decide), if_neg (by rw [state]; decide), atLevel]

/-- A falling edge trips a STOPPED train as well as an active one (R101). -/
theorem fallingEdge_of_stopped_or_active (h : (s.train x).state = .stopped ∨ (s.train x).state.active = true) :
    s.fallingEdge x = (s.setTrain x (atLevel (s.train x) false)).trip x .tripLine :=
  fallingEdge_eq.trans (if_pos h)

/-- A falling edge in LOCKED loads the cooldown again and clears release-taken (R101). -/
theorem fallingEdge_of_locked (h : (s.train x).state = .locked) :
    s.fallingEdge x =
      s.setTrain x
        { atLevel (s.train x) false with cooldown := .load (s.trainCfg x).cooldown s.now, releaseTaken := false } := by
  rw [fallingEdge_eq, if_neg (by rw [h]; decide), if_pos h]

/-- A falling edge of a TRIPPED, OFFLINE or ABSENT train is only recorded (R101). -/
theorem fallingEdge_of_out_of_use
    (h : (s.train x).state = .tripped ∨ (s.train x).state = .offline ∨ (s.train x).state = .absent) :
    s.fallingEdge x = s.setTrain x (atLevel (s.train x) false) := by
  rw [fallingEdge_eq, if_neg, if_neg] <;> rcases h with h | h | h <;> rw [h] <;> decide

theorem exec_tripFallingEdge (high : (s.train x).lineHigh = true) : exec (.tripFallingEdge x) s = .next (s.fallingEdge x) := by
  show execTripFallingEdge x s = _
  rw [execTripFallingEdge, if_pos high]

theorem exec_tripRisingEdge (low : (s.train x).lineHigh = false) : exec (.tripRisingEdge x) s = .next (s.risingEdge x) := by
  show execTripRisingEdge x s = _
  rw [execTripRisingEdge, if_neg (by rw [low]; decide)]

/-- A rising edge under EDGE_AND_LEVEL completes the release of a LOCKED train that waits for its line alone (R103). -/
theorem risingEdge_releases (locked : (s.train x).state = .locked) (level : (s.train x).sensitivity = .edgeAndLevel)
    (cooled : (s.train x).cooldown.expired = true) (taken : (s.train x).releaseTaken = true) :
    s.risingEdge x = (s.setTrain x (released (atLevel (s.train x) true))).changeAvailability := by
  have ready : (atLevel (s.train x) true).releasable = true :=
    (releasable_iff (r := atLevel (s.train x) true) locked).mpr ⟨cooled, taken, fun _ => rfl⟩
  rw [← tryRelease_setTrain_of_releasable s x ready]
  exact if_pos ⟨locked, level⟩

/-- A rising edge in any other case is only recorded (R103). -/
theorem risingEdge_records
    (h : ¬ ((s.train x).state = .locked ∧ (s.train x).sensitivity = .edgeAndLevel ∧
      (s.train x).cooldown.expired = true ∧ (s.train x).releaseTaken = true)) :
    s.risingEdge x = s.setTrain x (atLevel (s.train x) true) := by
  by_cases tested : (s.train x).state = .locked ∧ (s.train x).sensitivity = .edgeAndLevel
  · obtain ⟨locked, level⟩ := tested
    have waits : ¬ (atLevel (s.train x) true).releasable = true := fun ready =>
      have ⟨cooled, taken, _⟩ := (releasable_iff (r := atLevel (s.train x) true) locked).mp ready
      h ⟨locked, level, cooled, taken⟩
    rw [← tryRelease_setTrain_of_not_releasable s x waits]
    exact if_pos ⟨locked, level⟩
  · exact if_neg tested

end Edges

/-- Settles O27: a falling edge by the train's state, a rising edge by the conditions of R107 that are left. -/
theorem tripLineEdgesTripReloadAndRelease : Obligations.TripLineEdgesTripReloadAndRelease := by
  intro s x
  refine ⟨fun high => ⟨fun inUse => ?_, fun locked => ?_, fun outOfUse => ?_⟩, fun low => ⟨?_, fun waits => ?_⟩⟩
  · exact ⟨_, exec_tripFallingEdge high, fallingEdge_of_stopped_or_active inUse ▸ trip_trips _ x .tripLine⟩
  · refine ⟨_, exec_tripFallingEdge high, ?_⟩
    rw [fallingEdge_of_locked locked]
    exact ⟨setTrain_frame s x _, rfl⟩
  · refine ⟨_, exec_tripFallingEdge high, ?_⟩
    rw [fallingEdge_of_out_of_use outOfUse]
    exact ⟨setTrain_frame s x _, rfl⟩
  · rintro ⟨locked, level, cooled, taken⟩
    refine ⟨_, exec_tripRisingEdge low, ?_⟩
    rw [risingEdge_releases locked level cooled taken]
    exact ⟨setTrain_changeAvailability_frame s x _, setTrain_changeAvailability_raisedOnly s x _,
      setTrain_changeAvailability_reviewRequested s x _, setTrain_changeAvailability_trc s x _⟩
  · refine ⟨_, exec_tripRisingEdge low, ?_⟩
    rw [risingEdge_records waits]
    exact ⟨setTrain_frame s x _, rfl⟩

/-! ### The RELEASE request (R106) -/

/-- A plain response after an effect that leaves the port as taking the frame left it. -/
theorem repliedPlain_respond {s u : State} {p : Port} (k : Byte) (r : Result) (f : List Byte)
    (h : u.port p = (s.taken p).port p) : s.repliedPlain (u.respond p k r f) p k r f := by
  rw [port_taken] at h
  refine ⟨replied_respond k r f (by rw [h]), ?_⟩
  rw [port_respond, h]

section Release
variable {s : State} {number : Byte}

theorem exec_release_of_no_train (free : s.free .pp) (unnamed : Train.ofNumber number = none) :
    exec (.release number) s = .next ((s.taken .pp).respond .pp 0x13#8 .badField []) := by
  show execRelease number s = _
  rw [execRelease, takeFrame_free free, unnamed]

variable {x : Train}

theorem exec_release_of_not_locked (free : s.free .pp) (named : Train.ofNumber number = some x)
    (other : (s.train x).state ≠ .locked) :
    exec (.release number) s = .next ((s.taken .pp).respond .pp 0x13#8 .notLocked []) := by
  show execRelease number s = _
  rw [execRelease, takeFrame_free free, named]
  exact congrArg Host.Outcome.next (if_neg other)

/-- The state once a RELEASE for a LOCKED train is taken and before its response is built: release-taken is set and the release is
tested (R106). -/
def afterRelease (s : State) (x : Train) : State :=
  ((s.taken .pp).setTrain x { s.train x with releaseTaken := true }).tryRelease x

theorem exec_release_of_locked (free : s.free .pp) (named : Train.ofNumber number = some x)
    (locked : (s.train x).state = .locked) :
    exec (.release number) s =
      .next ((afterRelease s x).respond .pp 0x13#8 .ok (u8 ((afterRelease s x).train x).state.code)) := by
  show execRelease number s = _
  rw [execRelease, takeFrame_free free, named]
  exact congrArg Host.Outcome.next (if_pos locked)

/-- What is left of R107 once release-taken is set: the cooldown and, under EDGE_AND_LEVEL, the line. -/
def ReadyForRelease (r : TrainRecord) : Prop :=
  r.cooldown.expired = true ∧ (r.sensitivity = .edgeAndLevel → r.lineHigh = true)

theorem releasable_of_taken_iff {r : TrainRecord} (locked : r.state = .locked) :
    ({ r with releaseTaken := true } : TrainRecord).releasable = true ↔ ReadyForRelease r := by
  rw [releasable_iff (r := { r with releaseTaken := true }) locked, ReadyForRelease]
  simp only [true_and]

theorem afterRelease_of_ready (locked : (s.train x).state = .locked) (ready : ReadyForRelease (s.train x)) :
    afterRelease s x =
      ((s.taken .pp).setTrain x (released { s.train x with releaseTaken := true })).changeAvailability :=
  tryRelease_setTrain_of_releasable _ x ((releasable_of_taken_iff locked).mpr ready)

theorem afterRelease_of_not_ready (locked : (s.train x).state = .locked) (waits : ¬ ReadyForRelease (s.train x)) :
    afterRelease s x = (s.taken .pp).setTrain x { s.train x with releaseTaken := true } :=
  tryRelease_setTrain_of_not_releasable _ x fun ready => waits ((releasable_of_taken_iff locked).mp ready)

end Release

/-- Settles O22: the response follows the state in which RELEASE has set release-taken and tested the release, and that test is R107's
with one condition met. -/
theorem releaseNeedsCooldownAndLine : Obligations.ReleaseNeedsCooldownAndLine := by
  intro s number free
  refine ⟨fun x named locked => ⟨fun ready => ?_, fun waits => ?_⟩, fun x named other => ?_, fun unnamed => ?_⟩
  · refine ⟨_, exec_release_of_locked free named locked, ?_⟩
    rw [afterRelease_of_ready locked ready, train_setTrain_changeAvailability]
    refine ⟨respond_frame_of (onlyChanges_trans (onlyChanges_mono (taken_frame s .pp) (by decide))
        (onlyChanges_mono (setTrain_changeAvailability_frame _ x _) (by decide))) (by decide) _ _ _,
      ?_, ?_, ?_, repliedPlain_respond _ _ _ (port_setTrain_changeAvailability_ne _ x _ (by decide))⟩
    · exact setTrain_changeAvailability_trc (s.taken .pp) x _
    · exact setTrain_changeAvailability_raisedOnly (s.taken .pp) x _
    · exact setTrain_changeAvailability_reviewRequested (s.taken .pp) x _
  · refine ⟨_, exec_release_of_locked free named locked, ?_⟩
    rw [afterRelease_of_not_ready locked waits, train_setTrain_self, locked]
    exact ⟨respond_frame_of (onlyChanges_trans (onlyChanges_mono (taken_frame s .pp) (by decide))
        (onlyChanges_mono (setTrain_frame _ x _) (by decide))) (by decide) _ _ _,
      rfl, repliedPlain_respond _ _ _ rfl⟩
  · exact ⟨_, exec_release_of_not_locked free named other, reply_taken_frame s .pp _ _ _, reply_taken s .pp _ _ _⟩
  · exact ⟨_, exec_release_of_no_train free unnamed, reply_taken_frame s .pp _ _ _, reply_taken s .pp _ _ _⟩

end Sys2Proof.Proofs
end

section
/-! What an invariant needs to be kept by every step, said once: a property that device time keeps (`KeptByTime`) is kept by every
event and every tick, one that the taking of a frame keeps is kept by every request, and a step is one of these or another event. -/

namespace Sys2Proof.Proofs
open Sys2Proof Sys2Proof.Machine

/-! ### Device time -/

/-- A property that the parts of a tick, the events that fall due and the interval boundary keep, and that asks of the time base nothing
but the current interval. -/
structure KeptByTime (I : State → Prop) : Prop where
  time : ∀ {s : State} {b : TimeBase}, b.clock.map Clock.interval = s.tb.clock.map Clock.interval → I s → I (s.withTb b)
  tick : ∀ {s : State}, I s → I s.tickParts
  fire : ∀ {s : State} (e : Event), I s → I (s.fire e)
  boundary : ∀ {s : State} (m : Nat), I s → I (s.boundary m)

/-- A fold of steps that each keep a property keeps it. -/
theorem foldl_keeps {α : Type} {I : State → Prop} {f : State → α → State} (h : ∀ (s : State) (a : α), I s → I (f s a)) :
    ∀ (as : List α) {s : State}, I s → I (as.foldl f s)
  | [], _, hs => hs
  | a :: as, _, hs => foldl_keeps h as (h _ a hs)

namespace KeptByTime
variable {I : State → Prop} (h : KeptByTime I) {s : State}
include h

theorem takeDue (e : Event) (hs : I s) : I (s.takeDue e) := by
  unfold State.takeDue; split
  · exact h.fire e hs
  · exact hs

theorem finishInstant (hs : I s) : I s.finishInstant := by
  refine foldl_keeps (fun _ e => h.takeDue e) _ ?_
  split
  · exact h.tick (h.time (by rfl) hs)
  · exact hs

theorem runClock (n : Nat) (hs : I s) : I (s.runClock n) := by
  unfold State.runClock; split
  · exact hs
  · next c hc =>
    split
    · exact h.time (by simp [hc]) hs
    · exact h.boundary _ hs

theorem runClockUpTo (n : Nat) (hs : I s) : I (s.runClockUpTo n) := by
  unfold State.runClockUpTo; split
  · exact hs
  · next c hc =>
    split
    · exact h.time (by simp [hc]) hs
    · exact h.boundary _ hs

theorem takeReached (hs : I s) : I s.takeReached := by
  unfold State.takeReached; split
  · exact hs
  · split
    · exact h.boundary _ hs
    · exact hs

theorem passTime (n : Nat) (hs : I s) : I (s.passTime n) := h.runClock n (h.time (by rfl) hs)

theorem nextTick (o : Bool) (hs : I s) : I (s.nextTick o) := by
  have passed := h.passTime (secondMillis - s.finishInstant.tb.phase) (h.finishInstant hs)
  unfold State.nextTick
  dsimp only
  generalize s.finishInstant.passTime (secondMillis - s.finishInstant.tb.phase) = u at passed ⊢
  exact h.time rfl passed

theorem endSecond (hs : I s) : I s.endSecond := by
  have passed := h.runClockUpTo (secondMillis - s.finishInstant.tb.phase) (h.finishInstant hs)
  unfold State.endSecond
  dsimp only
  generalize s.finishInstant.runClockUpTo (secondMillis - s.finishInstant.tb.phase) = u at passed ⊢
  exact h.time rfl passed

theorem tickInstant (hs : I s) : I s.tickInstant := by
  unfold State.tickInstant; split
  · exact h.time (by rfl) hs
  · exact h.endSecond hs

theorem takeTick (hs : I s) : I s.takeTick := h.takeReached (h.tick (h.tickInstant hs))

theorem takenAt {u : State} {e : Event} (taken : s.takenAt e u) (hs : I s) : I u := by
  rcases taken with ⟨-, rfl⟩ | ⟨-, -, rfl, -⟩
  · exact hs
  · exact h.nextTick true hs

theorem atEvent (e : Event) (hs : I s) : I (s.atEvent e) := by
  unfold State.atEvent; split
  · exact hs
  · next u hu => exact h.fire e (h.takenAt ((eventInstant_iff s e u).mp hu) hs)

theorem reachBoundary (hs : I s) : I s.reachBoundary := by
  unfold State.reachBoundary; dsimp only; split
  · exact hs
  · split
    · exact h.passTime _ (h.finishInstant hs)
    · exact hs

theorem passMillisecond (hs : I s.sendNotice) : I s.passMillisecond := by
  unfold State.passMillisecond; dsimp only; split
  · exact h.passTime 1 (h.finishInstant hs)
  · exact h.takeTick hs

end KeptByTime

/-- The events by which device time passes: a tick, a boundary, or the row of an event that falls due. -/
def IsTimeEvent (c : Instr) : Prop := c = .dispatchTick ∨ c = .intervalBoundary ∨ ∃ e : Event, c = e.row

theorem exec_row (s : State) (e : Event) : exec e.row s = .next (s.atEvent e) := by cases e <;> rfl

theorem KeptByTime.exec {I : State → Prop} (h : KeptByTime I) {c : Instr} (timed : IsTimeEvent c) {s t : State} (hs : I s)
    (e : Machine.exec c s = .next t) : I t := by
  rcases timed with rfl | rfl | ⟨x, rfl⟩
  · exact Host.Outcome.next.inj e ▸ h.takeTick hs
  · exact Host.Outcome.next.inj e ▸ h.reachBoundary hs
  · exact Host.Outcome.next.inj ((exec_row s x).symm.trans e) ▸ h.atEvent x hs

/-- The commands that may change all that time may change are these. -/
theorem isTimeEvent_of_parts {c : Instr} (h : partsOf c = timeParts) : IsTimeEvent c := by
  cases c
  case dispatchTick => exact .inl rfl
  case intervalBoundary => exact .inr (.inl rfl)
  case lossTick => exact .inr (.inr ⟨.loss, rfl⟩)
  case staleOnset => exact .inr (.inr ⟨.stale, rfl⟩)
  case minDownExpiry x => exact .inr (.inr ⟨.minDown x, rfl⟩)
  case minRunExpiry x => exact .inr (.inr ⟨.minRun x, rfl⟩)
  case startTimerExpiry x => exact .inr (.inr ⟨.start x, rfl⟩)
  case stopTimerExpiry x => exact .inr (.inr ⟨.stop x, rfl⟩)
  case cooldownExpiry x => exact .inr (.inr ⟨.cooldown x, rfl⟩)
  case startHistoryPrune x => exact .inr (.inr ⟨.prune x, rfl⟩)
  case permitHoldExpiry => exact .inr (.inr ⟨.permitHold, rfl⟩)
  case dwellExpiry => exact .inr (.inr ⟨.dwell, rfl⟩)
  case gridLinkLoss => exact .inr (.inr ⟨.linkLoss, rfl⟩)
  case activationHoldExpiry => exact .inr (.inr ⟨.activationHold, rfl⟩)
  case backgroundCheck => exact .inr (.inr ⟨.background, rfl⟩)
  case frameDiscard p _ | unknownKind p _ | badLength p _ _ | responseSent p | status p | causes p | enables p _ | clearLink p =>
    cases p <;> cases h
  all_goals cases h

/-! ### Requests -/

/-- A property kept by the discard of a frame in progress, by the count of an error and by what the frame does once taken is kept by
the taking of the frame. -/
theorem takeFrame_keeps {I : State → Prop} {p : Port} {act : State → State} {s : State}
    (cut : I s → I (s.cutOff p)) (count : ∀ u : State, I u → (u.port p).owed = true → I (u.countError p))
    (acts : ∀ u : State, I u → u.free p → I (act (u.taken p))) (hs : I s) : I (s.takeFrame p act) := by
  obtain ⟨u, hu, -, taken⟩ := takeFrame_cases s p act
  have kept : I u := by
    rcases hu with rfl | rfl
    · exact hs
    · exact cut hs
  rcases taken with ⟨owed, e⟩ | ⟨free, e⟩ <;> rw [e]
  · exact count u kept owed
  · exact acts u kept free

/-- A property that looks at no port, and at nothing of the grid link but what a frame leaves. -/
structure KeptByFrames (I : State → Prop) : Prop where
  port : ∀ {s : State} (p : Port) (x : PortState), I s → I (s.setPort p x)
  link : ∀ {s : State}, I s → I (s.withRsv s.linkAfterFrame)

namespace KeptByFrames
variable {I : State → Prop} (h : KeptByFrames I) {s : State}
include h

theorem raise (p : Port) (c : Cause) (hs : I s) : I (s.raise p c) := h.port p _ hs

theorem respond (p : Port) (k : Byte) (r : Result) (f : List Byte) (hs : I s) : I (s.respond p k r f) := h.port p _ hs

theorem countError (p : Port) (hs : I s) : I (s.countError p) := by
  rw [countError_eq]; exact h.port p _ hs

theorem taken (p : Port) (hs : I s) : I (s.taken p) := by
  have moved : I (s.setPort p { s.port p with assembler := .waiting, owed := true }) := h.port p _ hs
  unfold State.taken; split
  · exact h.link moved
  · exact moved

theorem reportEnd (c : Terms) (r : Result) (f : Option Failure) (hs : I s) : I (s.reportEnd c r f) := by
  unfold State.reportEnd; split
  · exact h.respond _ _ _ _ hs
  · exact h.port _ _ (h.raise _ _ hs)

theorem takeFrame {p : Port} {act : State → State} (acts : ∀ u : State, I u → I (act u)) (hs : I s) : I (s.takeFrame p act) :=
  takeFrame_keeps (h.port p _) (fun _ hu _ => h.countError p hu) (fun _ hu _ => acts _ (h.taken p hu)) hs

end KeptByFrames

/-! ### Steps -/

/-- A step is the front command's effect or the passing of a millisecond. -/
theorem step_keeps {I : State → Prop} {s t : State} (queue : ∀ l : List Instr, I s → I (s.withPending l))
    (idle : I s → I s.passMillisecond) (runs : ∀ (c : Instr) (u : State), I u → exec c u = .next t → I t) (hs : I s)
    (e : step s = .next t) : I t := by
  unfold step at e; split at e
  · cases e; exact idle hs
  · next c rest _ => exact runs c _ (queue rest hs) e

/-- What a frame that any port takes may change. -/
theorem frameParts_le (p : Port) : ∀ x ∈ frameParts p, x ∈ [Part.pp, .tp, .gp, .rsv] := by cases p <;> decide

/-- The parts that a command may change, with the port of a command that every port has left open. -/
def widePartsOf (c : Instr) : List Part :=
  match c with
  | .frameDiscard _ _ | .unknownKind _ _ | .badLength _ _ _ | .responseSent _ | .status _ | .causes _ | .enables _ _
  | .clearLink _ => [.pp, .tp, .gp, .rsv]
  | c => partsOf c

theorem exec_wideFrame {c : Instr} {s t : State} (e : exec c s = .next t) : s.onlyChanges t (widePartsOf c) := by
  have f := exec_frame c s t e
  cases c
  case frameDiscard p _ | unknownKind p _ | badLength p _ _ | responseSent p | status p | causes p | enables p _ | clearLink p =>
    exact onlyChanges_mono f (frameParts_le p)
  all_goals exact f

end Sys2Proof.Proofs
end

section
/-! O56: the mass and the heats stay within their bounds (R1 to R3). The account moves at a METER, an ANCHOR, a loss tick, a passing check
and a reset; every other command leaves the inventory and the settings alone. -/

namespace Sys2Proof.Proofs
open Sys2Proof Sys2Proof.Machine

/-! ### What the invariant looks at -/

/-- The account of an inventory: what the invariant reads of it. -/
structure SameAccount (s t : State) : Prop where
  status : t.inv.status = s.inv.status
  mass : t.inv.mass = s.inv.mass
  heat : t.inv.heat = s.inv.heat

theorem settingsSafe_congr {s t : State} (settings : t.settings = s.settings) (h : s.SettingsSafe) : t.SettingsSafe := by
  unfold State.SettingsSafe; rw [settings]; exact h

theorem cfg_of_settings {s : State} {c : Settings} (h : s.settings = some c) : s.cfg = c := by unfold State.cfg; rw [h]; rfl

theorem inventorySafe_congr {s t : State} (settings : t.settings = s.settings) (same : SameAccount s t) (h : s.InventorySafe) :
    t.InventorySafe where
  settings := settingsSafe_congr settings h.settings
  unloaded := by rw [settings, same.status, same.mass, same.heat]; exact h.unloaded
  mass := by rw [settings, same.mass]; exact h.mass
  heat := by rw [settings, same.heat]; exact h.heat

theorem inventorySafe_of_frame {s t : State} {l : List Part} (f : s.onlyChanges t l) (inv : Part.inv ∉ l := by decide)
    (settings : Part.settings ∉ l := by decide) (h : s.InventorySafe) : t.InventorySafe :=
  have e := frame_inv f inv
  inventorySafe_congr (frame_settings f settings) ⟨by rw [e], by rw [e], by rw [e]⟩ h

theorem inventorySafe_keptByFrames : KeptByFrames State.InventorySafe where
  port {s} _ _ h := inventorySafe_congr (s := s) rfl ⟨rfl, rfl, rfl⟩ h
  link {s} h := inventorySafe_congr (s := s) rfl ⟨rfl, rfl, rfl⟩ h

/-- An inventory is anchored only while settings are loaded (R3). -/
theorem settings_of_anchored {s : State} (h : s.InventorySafe) (anchored : s.inv.status.anchored = true) :
    ∃ c, s.settings = some c := by
  cases settings : s.settings with
  | some c => exact ⟨c, rfl⟩
  | none => rw [(h.unloaded settings).1] at anchored; cases anchored

/-- The account may be moved while settings are loaded, as long as it stays within their bounds. -/
theorem inventorySafe_withInv {s : State} {c : Settings} (loaded : s.settings = some c) (safe : s.SettingsSafe) {v : Inventory}
    (mass : v.mass ≤ c.lastMass) (heat : ∀ k, v.heat.get k ≤ (c.tiers.get k).capacity) : (s.withInv v).InventorySafe where
  settings := settingsSafe_congr rfl safe
  unloaded none := absurd (loaded.symm.trans none) (by simp)
  mass d hd := by cases loaded.symm.trans hd; exact mass
  heat d k hd := by cases loaded.symm.trans hd; exact heat k

/-! ### A METER (R5 to R11) -/

theorem clampEvent_inventorySafe {s : State} (mark : RecordFlags → RecordFlags) (h : s.InventorySafe) :
    (s.clampEvent mark).InventorySafe := inventorySafe_of_frame (clampEvent_frame s mark) (h := h)

theorem saturate_le {increase : Bool} {top value d : Nat} (h : value ≤ top) : saturate increase top value d ≤ top := by
  unfold saturate; split
  · exact Nat.min_le_left _ _
  · omega

theorem applyMass_inventorySafe {s : State} (x : Train) (d : Nat) (h : s.InventorySafe) : (s.applyMass x d).InventorySafe := by
  unfold State.applyMass; dsimp only
  split
  · next anchored =>
    obtain ⟨c, loaded⟩ := settings_of_anchored h anchored
    have moved := inventorySafe_withInv loaded h.settings
      (v := { s.inv with mass := saturate (decide (x.kind = .compressor)) s.cfg.lastMass s.inv.mass d })
      (by rw [cfg_of_settings loaded]; exact saturate_le (h.mass c loaded)) (h.heat c · loaded)
    split
    · exact clampEvent_inventorySafe _ moved
    · exact moved
  · exact h

theorem applyHeat_inventorySafe {s : State} (k : Tier) (increase : Bool) (d : Nat) (h : s.InventorySafe) :
    (s.applyHeat k increase d).InventorySafe := by
  unfold State.applyHeat; dsimp only
  split
  · next anchored =>
    obtain ⟨c, loaded⟩ := settings_of_anchored h anchored
    have moved := inventorySafe_withInv loaded h.settings
      (v := { s.inv with heat := s.inv.heat.set k (saturate increase (s.cfg.tiers.get k).capacity (s.inv.heat.get k) d) })
      (h.mass c loaded) fun l => by
        by_cases hl : l = k
        · subst hl
          rw [PerTier.get_set_self, cfg_of_settings loaded]
          exact saturate_le (h.heat c l loaded)
        · rw [PerTier.get_set_ne _ _ hl]
          exact h.heat c l loaded
    split
    · exact clampEvent_inventorySafe _ moved
    · exact moved
  · exact h

theorem workMass_inventorySafe (elapsed : Nat) (report : MeterReport) (s : State) (x : Train) (h : s.InventorySafe) :
    (State.workMass elapsed report s x).InventorySafe := by
  have based : (s.withInv { s.inv with massBase := s.inv.massBase.set x (some (report.trains.get x).mass) }).InventorySafe :=
    inventorySafe_congr (s := s) rfl ⟨rfl, rfl, rfl⟩ h
  unfold State.workMass; dsimp only
  split
  · split
    · exact based
    · split
      · exact applyMass_inventorySafe x _ based
      · exact clampEvent_inventorySafe _ based
  · exact h

theorem workHeat_inventorySafe {s : State} (elapsed : Nat) (k : Tier) (increase : Bool) (base : Option Word) (value : Word)
    (h : s.InventorySafe) : (s.workHeat elapsed k increase base value).InventorySafe := by
  unfold State.workHeat
  split
  · exact h
  · split
    · exact applyHeat_inventorySafe k increase _ h
    · exact clampEvent_inventorySafe _ h

theorem workTier_inventorySafe (elapsed : Nat) (report : MeterReport) (s : State) (k : Tier) (h : s.InventorySafe) :
    (State.workTier elapsed report s k).InventorySafe := by
  unfold State.workTier; dsimp only
  have heatIn := workHeat_inventorySafe elapsed k true (s.inv.heatInBase.get k) (report.tiers.get k).heatIn
    (inventorySafe_congr (s := s) (t := s.withInv { s.inv with
      heatInBase := s.inv.heatInBase.set k (some (report.tiers.get k).heatIn) }) rfl ⟨rfl, rfl, rfl⟩ h)
  generalize State.workHeat elapsed k true _ _ _ = u at heatIn
  exact workHeat_inventorySafe _ _ _ _ _ (inventorySafe_congr (s := u) rfl ⟨rfl, rfl, rfl⟩ heatIn)

theorem driftTest_inventorySafe {s : State} (pressure : Nat) (h : s.InventorySafe) : (s.driftTest pressure).InventorySafe := by
  unfold State.driftTest; dsimp only
  split
  · next anchored =>
    obtain ⟨c, loaded⟩ := settings_of_anchored h anchored
    split
    · exact inventorySafe_of_frame (onlyChanges_trans (raise_frame _ .pp .drift |> onlyChanges_mono (m := [.pp, .tp, .prj]) <| by decide)
        (onlyChanges_trans (onlyChanges_mono (raise_frame _ .tp .inventory) (by decide))
          (onlyChanges_mono (requestReview_frame _) (by decide))))
        (h := inventorySafe_withInv loaded h.settings (h.mass c loaded) (h.heat c · loaded))
    · exact inventorySafe_congr (s := s) rfl ⟨rfl, rfl, rfl⟩ h
  · exact h

theorem workMeter_inventorySafe {s : State} (report : MeterReport) (h : s.InventorySafe) : (s.workMeter report).InventorySafe := by
  have worked : (s.workTotalisers report).InventorySafe :=
    foldl_keeps (workTier_inventorySafe _ report) _ (foldl_keeps (workMass_inventorySafe _ report) _ h)
  have tested := driftTest_inventorySafe report.pressure.toNat worked
  unfold State.workMeter; dsimp only
  generalize (s.workTotalisers report).driftTest report.pressure.toNat = u at tested
  have reported : ((u.withInv { u.inv with lastMeter := u.now }).takeReports report).InventorySafe :=
    inventorySafe_of_frame (takeReports_frame _ report) (h := inventorySafe_congr (s := u) rfl ⟨rfl, rfl, rfl⟩ tested)
  generalize (u.withInv _).takeReports report = v at reported
  unfold State.recover
  split
  · exact inventorySafe_congr (s := v) rfl ⟨rfl, rfl, rfl⟩ reported
  · exact inventorySafe_congr (s := v) rfl ⟨rfl, rfl, rfl⟩ reported

/-! ### An ANCHOR (R13) -/

/-- A reading over a passed table is never above the last point's value. -/
theorem readTable_le_last {key val : TablePoint → Nat} {pt : Nat → TablePoint}
    (rising : StrictMonoOn (fun i => key (pt i)) (Set.Iic 15)) (values : StrictMonoOn (fun i => val (pt i)) (Set.Iic 15)) (x : Nat) :
    readTable key val (pointsFrom pt 0 16) x ≤ val (pt 15) := by
  have upTo (i : Nat) (hi : i ≤ 15) : val (pt i) ≤ val (pt 15) := values.monotoneOn hi (Set.mem_Iic.mpr le_rfl) hi
  obtain ⟨below, above, _, segment⟩ := readTable_clamped_and_interpolated val rising x
  rcases Nat.lt_or_ge x (key (pt 0)) with lt | ge
  · rw [below lt]; exact upTo 0 (by omega)
  rcases Nat.lt_or_ge (key (pt 15)) x with lt | le
  · rw [above lt]
  classical
  have least := Nat.find_spec (segment ge le)
  generalize hi : Nat.find (segment ge le) = i at least
  obtain ⟨inside, lo, up⟩ := least
  rw [readTable_of_mem_segment (n := 15) val rising (by omega) lo up fun j hj between =>
    Nat.find_min (segment ge le) (hi ▸ hj) ⟨by omega, between⟩]
  have rises : key (pt i) < key (pt (i + 1)) :=
    rising (Set.mem_Iic.mpr (by omega)) (Set.mem_Iic.mpr (by omega)) (Nat.lt_succ_self i)
  have valRises : val (pt i) ≤ val (pt (i + 1)) :=
    values.monotoneOn (Set.mem_Iic.mpr (by omega)) (Set.mem_Iic.mpr (by omega)) (Nat.le_succ i)
  have part : (x - key (pt i)) * (val (pt (i + 1)) - val (pt i)) / (key (pt (i + 1)) - key (pt i)) ≤
      val (pt (i + 1)) - val (pt i) :=
    Nat.div_le_of_le_mul (Nat.mul_le_mul_right _ (by omega))
  have last := upTo (i + 1) (by omega)
  unfold segmentValue
  omega

theorem ofImage_lastMass (image : Image) : (Settings.ofImage image).lastMass = (tablePoint image 15).mass := rfl

/-- An inverse table value never passes the last mass of the table in force (R24). -/
theorem inverseTable_le_lastMass {s : State} {c : Settings} (safe : s.SettingsSafe) (loaded : s.settings = some c) (pressure : Nat) :
    inverseTable c.table pressure ≤ c.lastMass := by
  obtain ⟨image, passed, rfl⟩ := safe c loaded
  rw [ofImage_table, ofImage_lastMass]
  exact readTable_le_last (key := TablePoint.pressure) (val := TablePoint.mass) (pressures_strictMonoOn passed)
    (masses_strictMonoOn passed) pressure

theorem takeAnchor_inventorySafe {s : State} (may : s.mayAnchor = true) (pressure : Nat) (heat : PerTier Word) (h : s.InventorySafe) :
    (s.takeAnchor pressure heat).InventorySafe := by
  obtain ⟨c, loaded⟩ : ∃ c, s.settings = some c := by
    unfold State.mayAnchor at may
    exact Option.isSome_iff_exists.mp (Bool.and_eq_true_iff.mp may).1
  have set : (s.anchored pressure heat).InventorySafe := inventorySafe_withInv loaded h.settings
    (by rw [cfg_of_settings loaded]; exact inverseTable_le_lastMass h.settings loaded pressure)
    (fun k => by rw [PerTier.get_of, cfg_of_settings loaded]; exact Nat.min_le_right _ _)
  unfold State.takeAnchor; dsimp only
  refine inventorySafe_of_frame (requestReview_frame _) (h := inventorySafe_keptByFrames.raise .tp _ ?_)
  split
  · exact inventorySafe_keptByFrames.raise .pp _ set
  · exact set

/-! ### Device time -/

theorem applyLosses_inventorySafe {s : State} (h : s.InventorySafe) : s.applyLosses.InventorySafe := by
  unfold State.applyLosses
  split
  · next anchored =>
    obtain ⟨c, loaded⟩ := settings_of_anchored h anchored
    exact inventorySafe_withInv loaded h.settings ((Nat.sub_le _ _).trans (h.mass c loaded)) fun k => by
      rw [PerTier.get_of]; exact (Nat.sub_le _ _).trans (h.heat c k loaded)
  · exact h

theorem inventorySafe_keptByTime : KeptByTime State.InventorySafe where
  time {s _} _ h := inventorySafe_congr (s := s) rfl ⟨rfl, rfl, rfl⟩ h
  tick h := inventorySafe_of_frame (tickParts_frame _) (h := h)
  fire {s} e h := by
    have f := fire_frame s e
    cases e
    case loss => exact applyLosses_inventorySafe (inventorySafe_congr (s := s) rfl ⟨rfl, rfl, rfl⟩ h)
    case stale =>
      refine inventorySafe_of_frame (markRecord_frame _ _) (h := inventorySafe_keptByFrames.raise .tp _ ?_)
      exact inventorySafe_congr (s := s) rfl ⟨rfl, rfl, rfl⟩ h
    all_goals
      dsimp only [Event.parts] at f
      exact inventorySafe_of_frame f (h := h)
  boundary m h := inventorySafe_of_frame (boundary_frame _ m) (h := h)

/-! ### A passing check (R2) -/

theorem loadInventory_inventorySafe {s : State} {c : Settings} (loaded : s.settings = some c) (safe : s.SettingsSafe) :
    (s.loadInventory c).InventorySafe := by
  have held := inventorySafe_withInv loaded safe
    (v := { s.inv with
      mass := min s.inv.mass c.lastMass, heat := PerTier.of fun k => min (s.inv.heat.get k) (c.tiers.get k).capacity
      massBase := PerTrain.of fun t => if (c.trains.get t).installed then s.inv.massBase.get t else none })
    (Nat.min_le_right _ _) (fun k => by rw [PerTier.get_of]; exact Nat.min_le_right _ _)
  unfold State.loadInventory; dsimp only
  split
  · exact clampEvent_inventorySafe _ held
  · exact held

theorem settingsSafe_ofImage {image : Image} (passed : failingField image = none) (s : State) :
    (s.withSettings (some (.ofImage image))).SettingsSafe := by
  intro c hc; cases hc; exact ⟨image, passed, rfl⟩

theorem handValues_inventorySafe {s : State} {image : Image} (passed : failingField image = none) :
    (s.handValues image).InventorySafe := by
  have load : ((s.withSettings (some (.ofImage image))).loadInventory (.ofImage image)).InventorySafe :=
    loadInventory_inventorySafe rfl (settingsSafe_ofImage passed s)
  unfold State.handValues; dsimp only
  refine inventorySafe_of_frame (l := boundaryParts ++ trainParts) (onlyChanges_trans (onlyChanges_mono (applyLength_frame _ _) (by decide))
    (onlyChanges_trans (onlyChanges_mono (applyDefaultMode_frame _ _) (by decide))
      (onlyChanges_trans (onlyChanges_mono (foldl_frame applyInstalled_frame _ _) (by decide))
        (onlyChanges_trans (onlyChanges_mono (withDu_frame _ _) (by decide))
          (onlyChanges_mono (firstLinkLoad_frame _ _) (by decide)))))) (h := load)

theorem modeAfterPass_frame (s : State) (purpose : Purpose) : s.onlyChanges (s.modeAfterPass purpose) modeParts := by
  unfold State.modeAfterPass; split
  · exact onlyChanges_mono (setMode_frame _ _) (by decide)
  · exact enterService_frame _
  · exact onlyChanges_refl _ _

theorem checkPassed_inventorySafe (s : State) (purpose : Purpose) {image : Image} (passed : failingField image = none) :
    (s.checkPassed purpose image).InventorySafe :=
  inventorySafe_keptByFrames.raise .pp _ (inventorySafe_of_frame (modeAfterPass_frame _ purpose) (h := handValues_inventorySafe passed))

/-! ### Every step -/

theorem afterReset_inventorySafe (working stored : Image) (lines : PerTrain Bool) (draws : Nat) (pending : List Instr) :
    (State.afterReset working stored lines draws pending).InventorySafe where
  settings := nofun
  unloaded _ := ⟨rfl, rfl, fun k => by cases k <;> rfl⟩
  mass := nofun
  heat := nofun

theorem exec_inventorySafe (c : Instr) {s t : State} (h : s.InventorySafe) (e : exec c s = .next t) : t.InventorySafe := by
  have f := exec_wideFrame e
  cases c
  case powerOnReset => cases e; exact afterReset_inventorySafe ..
  case pinReset =>
    cases e; split
    · exact afterReset_inventorySafe ..
    · exact h
  case meter report =>
    cases e
    refine inventorySafe_keptByFrames.takeFrame (fun u hu => ?_) h
    split
    · exact inventorySafe_keptByFrames.respond _ _ _ _ (workMeter_inventorySafe report hu)
    · exact inventorySafe_keptByFrames.respond _ _ _ _ hu
  case anchor pressure heat =>
    cases e
    refine inventorySafe_keptByFrames.takeFrame (fun u hu => ?_) h
    split
    · next may => exact inventorySafe_keptByFrames.respond _ _ _ _ (takeAnchor_inventorySafe may _ heat hu)
    · exact inventorySafe_keptByFrames.respond _ _ _ _ hu
  case profileCheckCompletion =>
    cases e; split
    · split
      · next passed => exact checkPassed_inventorySafe s _ passed
      · exact inventorySafe_of_frame (checkFailed_frame s _ _) (h := h)
    · exact h
  case dispatchTick | intervalBoundary | lossTick | staleOnset | minDownExpiry | minRunExpiry | startTimerExpiry | stopTimerExpiry
    | cooldownExpiry | startHistoryPrune | permitHoldExpiry | dwellExpiry | gridLinkLoss | activationHoldExpiry | backgroundCheck =>
    exact inventorySafe_keptByTime.exec (isTimeEvent_of_parts rfl) h e
  all_goals
    dsimp only [widePartsOf, partsOf] at f
    exact inventorySafe_of_frame f (h := h)

/-- Settles O56: the account moves only at a METER, an ANCHOR, a loss tick, a passing check and a reset, and each of these holds it within
the bounds in force. -/
theorem stepsKeepTheInventoryInBounds : Obligations.StepsKeepTheInventoryInBounds := fun s _ h e =>
  step_keeps (fun _ h => inventorySafe_congr (s := s) rfl ⟨rfl, rfl, rfl⟩ h)
    (fun h => inventorySafe_keptByTime.passMillisecond (inventorySafe_congr (s := s) rfl ⟨rfl, rfl, rfl⟩ h))
    (fun c _ h e => exec_inventorySafe c h e) h e

end Sys2Proof.Proofs
end

section
/-! O58: the trains and the target stay safe (R94, R108, R126 to R128). Outside a computing tick no train becomes active: every operation
eases the trains (`Eases`). A START is the one exception, and the tick that gives it forms the target and the setpoints anew. -/

namespace Sys2Proof.Proofs
open Sys2Proof Sys2Proof.Machine

/-! ### Records and setpoints after the shared operations -/

theorem train_changeAvailability (s : State) (x : Train) : s.changeAvailability.train x = s.train x := by
  unfold State.train; rw [changeAvailability_trc]

theorem du_changeAvailability (s : State) : s.changeAvailability.du = s.du := frame_du (changeAvailability_frame s)

theorem train_trip_self (s : State) (x : Train) (reason : TripReason) :
    (s.trip x reason).train x = { (s.train x).leave with state := .tripped, reason := some reason } :=
  (trip_trips s x reason).record

theorem train_trip_ne (s : State) {x y : Train} (reason : TripReason) (h : y ≠ x) : (s.trip x reason).train y = s.train y :=
  (trip_trips s x reason).others y h

theorem setpoint_trip (s : State) (x : Train) (reason : TripReason) :
    (s.trip x reason).du.setpoint = s.du.setpoint.set x 0 := by
  rw [trip_du]; split <;> rfl

theorem target_trip (s : State) (x : Train) (reason : TripReason) : (s.trip x reason).du.target = s.du.target := by
  rw [trip_du]; split <;> rfl

/-! ### What the invariant looks at -/

/-- From `s` to `t` no train becomes active or STARTING, and no setpoint is left on a train that is not RUNNING. -/
structure Eases (s t : State) : Prop where
  mode : t.prof.mode = s.prof.mode
  target : t.du.target = s.du.target
  active : ∀ x, (t.train x).state.active = true → (s.train x).state.active = true
  starting : ∀ x, (t.train x).state = .starting → (s.train x).state = .starting
  rest : ∀ x, (t.train x).state ≠ .running →
    t.du.setpoint.get x = 0 ∨ (s.train x).state ≠ .running ∧ t.du.setpoint.get x = s.du.setpoint.get x

/-- And a RUNNING train was RUNNING with its setpoint, or is at its min stable. -/
structure EasesSetpoints (s t : State) : Prop extends Eases s t where
  settings : t.settings = s.settings
  running : ∀ x, (t.train x).state = .running →
    (s.train x).state = .running ∧ t.du.setpoint.get x = s.du.setpoint.get x ∨
    t.du.setpoint.get x = (s.trainCfg x).minStable

theorem trainCfg_congr {s t : State} (h : t.settings = s.settings) (x : Train) : t.trainCfg x = s.trainCfg x := by
  unfold State.trainCfg; rw [cfg_congr h]

theorem Eases.trans {s t u : State} (h : Eases s t) (g : Eases t u) : Eases s u where
  mode := g.mode.trans h.mode
  target := g.target.trans h.target
  active x hx := h.active x (g.active x hx)
  starting x hx := h.starting x (g.starting x hx)
  rest x hx := by
    rcases g.rest x hx with zero | ⟨idle, same⟩
    · exact .inl zero
    · rw [same]; exact h.rest x idle

theorem EasesSetpoints.trans {s t u : State} (h : EasesSetpoints s t) (g : EasesSetpoints t u) : EasesSetpoints s u where
  toEases := h.toEases.trans g.toEases
  settings := g.settings.trans h.settings
  running x hx := by
    rcases g.running x hx with ⟨runs, same⟩ | least
    · rw [same]; exact h.running x runs
    · exact .inr (least.trans (by rw [trainCfg_congr h.settings]))

theorem easesSetpoints_of_same {s t : State} (settings : t.settings = s.settings) (mode : t.prof.mode = s.prof.mode)
    (states : ∀ x, (t.train x).state = (s.train x).state) (target : t.du.target = s.du.target)
    (setpoint : t.du.setpoint = s.du.setpoint) : EasesSetpoints s t where
  mode := mode
  target := target
  active x hx := states x ▸ hx
  starting x hx := states x ▸ hx
  rest x hx := .inr ⟨states x ▸ hx, by rw [setpoint]⟩
  settings := settings
  running x hx := .inl ⟨states x ▸ hx, by rw [setpoint]⟩

theorem easesSetpoints_of_frame {s t : State} {l : List Part} (f : s.onlyChanges t l) (trc : Part.trc ∉ l := by decide)
    (du : Part.du ∉ l := by decide) (prof : Part.prof ∉ l := by decide) (settings : Part.settings ∉ l := by decide) :
    EasesSetpoints s t :=
  easesSetpoints_of_same (frame_settings f settings) (by rw [frame_prof f prof])
    (fun x => by rw [train_congr (frame_trc f trc)]) (by rw [frame_du f du]) (by rw [frame_du f du])

theorem EasesSetpoints.refl (s : State) : EasesSetpoints s s := easesSetpoints_of_frame (onlyChanges_refl s [])

theorem easesSetpoints_foldl {α : Type} {f : State → α → State} (h : ∀ s a, EasesSetpoints s (f s a)) :
    ∀ (as : List α) (s : State), EasesSetpoints s (as.foldl f s)
  | [], s => .refl s
  | a :: as, s => (h s a).trans (easesSetpoints_foldl h as (f s a))

/-- One train changes its state, and its setpoint stays or becomes what its new state asks for. -/
theorem easesSetpoints_of_one {s t : State} (x : Train) (settings : t.settings = s.settings) (mode : t.prof.mode = s.prof.mode)
    (target : t.du.target = s.du.target) (others : ∀ y, y ≠ x → t.train y = s.train y)
    (setpoints : ∀ y, y ≠ x → t.du.setpoint.get y = s.du.setpoint.get y)
    (active : (t.train x).state.active = true → (s.train x).state.active = true)
    (starting : (t.train x).state = .starting → (s.train x).state = .starting)
    (rest : (t.train x).state ≠ .running →
      t.du.setpoint.get x = 0 ∨ (s.train x).state ≠ .running ∧ t.du.setpoint.get x = s.du.setpoint.get x)
    (running : (t.train x).state = .running →
      (s.train x).state = .running ∧ t.du.setpoint.get x = s.du.setpoint.get x ∨
      t.du.setpoint.get x = (s.trainCfg x).minStable) : EasesSetpoints s t where
  mode := mode
  target := target
  settings := settings
  active y hy := by
    by_cases h : y = x
    · exact h ▸ active (h ▸ hy)
    · exact others y h ▸ hy
  starting y hy := by
    by_cases h : y = x
    · exact h ▸ starting (h ▸ hy)
    · exact others y h ▸ hy
  rest y hy := by
    by_cases h : y = x
    · exact h ▸ rest (h ▸ hy)
    · exact .inr ⟨others y h ▸ hy, setpoints y h⟩
  running y hy := by
    by_cases h : y = x
    · exact h ▸ running (h ▸ hy)
    · exact .inl ⟨others y h ▸ hy, setpoints y h⟩

/-- A new record of one train, with its setpoint as it was: the train neither becomes active nor leaves RUNNING. -/
theorem easesSetpoints_setTrain (s : State) (x : Train) (r : TrainRecord)
    (active : r.state.active = true → r.state = (s.train x).state) (stays : (s.train x).state = .running → r.state = .running) :
    EasesSetpoints s (s.setTrain x r) := by
  have self := train_setTrain_self s x r
  refine easesSetpoints_of_one x rfl rfl rfl (fun y hy => train_setTrain_ne s r hy) (fun _ _ => rfl) ?_ ?_ ?_ ?_ <;> rw [self]
  · intro h; rwa [← active h]
  · intro h; rw [← active (by rw [h]; rfl), h]
  · exact fun h => .inr ⟨fun runs => h (stays runs), rfl⟩
  · exact fun h => .inl ⟨(active (by rw [h]; rfl)).symm.trans h, rfl⟩

theorem setpoint_setSetpoint_self (s : State) (x : Train) (kw : Nat) : (s.setSetpoint x kw).du.setpoint.get x = kw :=
  PerTrain.get_set_self _ _ _

theorem setpoint_setSetpoint_ne (s : State) {x y : Train} (kw : Nat) (h : y ≠ x) :
    (s.setSetpoint x kw).du.setpoint.get y = s.du.setpoint.get y := PerTrain.get_set_ne _ _ h

/-- A new record of a train that does not run, with setpoint 0 (R128). -/
theorem easesSetpoints_setTrain_zero (s : State) (x : Train) (r : TrainRecord)
    (active : r.state.active = true → (s.train x).state.active = true) (starting : r.state ≠ .starting) (idle : r.state ≠ .running) :
    EasesSetpoints s ((s.setTrain x r).setSetpoint x 0) := by
  have self : ((s.setTrain x r).setSetpoint x 0).train x = r := train_setTrain_self s x r
  refine easesSetpoints_of_one x rfl rfl rfl (fun y hy => train_setTrain_ne s r hy)
    (fun y hy => setpoint_setSetpoint_ne _ 0 hy) ?_ ?_ ?_ ?_ <;> rw [self]
  · exact active
  · exact fun h => absurd h starting
  · exact fun _ => .inl (setpoint_setSetpoint_self _ x 0)
  · exact fun h => absurd h idle

/-! ### The operations of the Train Controller -/

theorem trip_eases (s : State) (x : Train) (reason : TripReason) : EasesSetpoints s (s.trip x reason) := by
  have f := trip_frame s x reason
  have self := train_trip_self s x reason
  refine easesSetpoints_of_one x (frame_settings f) (by rw [frame_prof f]) (target_trip s x reason)
    (fun y hy => train_trip_ne s reason hy) (fun y hy => by rw [setpoint_trip]; exact PerTrain.get_set_ne _ _ hy) ?_ ?_ ?_ ?_ <;>
    rw [self]
  · exact nofun
  · exact nofun
  · exact fun _ => .inl (by rw [setpoint_trip]; exact PerTrain.get_set_self _ _ _)
  · exact nofun

theorem tripActive_eases (s : State) (reason : TripReason) : EasesSetpoints s (s.tripActive reason) :=
  easesSetpoints_foldl (fun s x => by
    unfold State.tripIfActive; split
    · exact trip_eases s x reason
    · exact .refl s) _ s

theorem changeAvailability_eases (s : State) : EasesSetpoints s s.changeAvailability :=
  have f := changeAvailability_frame s
  easesSetpoints_of_same (frame_settings f) (by rw [frame_prof f]) (fun x => by rw [train_changeAvailability])
    (by rw [du_changeAvailability]) (by rw [du_changeAvailability])

theorem leftActive_eases (s : State) (k : Kind) : EasesSetpoints s (s.leftActive k) := by
  have f := leftActive_frame s k
  refine easesSetpoints_of_same (frame_settings f) (by rw [frame_prof f]) (fun x => by rw [train_congr (frame_trc f)]) ?_ ?_ <;>
    (rw [leftActive_du]; split <;> rfl)

/-- A train that was neither active nor RUNNING enters a state that is neither. -/
theorem setTrain_idle_eases (s : State) (x : Train) (r : TrainRecord) (was : (s.train x).state.active = false)
    (is : r.state.active = false) : EasesSetpoints s (s.setTrain x r) :=
  easesSetpoints_setTrain s x r (fun h => absurd (h.symm.trans is) (by decide))
    fun h => absurd (was.symm.trans (by rw [h])) (by decide)

theorem setTrain_same_eases (s : State) (x : Train) (r : TrainRecord) (same : r.state = (s.train x).state := by rfl) :
    EasesSetpoints s (s.setTrain x r) :=
  easesSetpoints_setTrain s x r (fun _ => same) fun h => same.trans h

theorem locked_of_releasable {r : TrainRecord} (h : r.releasable = true) : r.state = .locked := by
  unfold TrainRecord.releasable at h
  simp only [Bool.and_eq_true, decide_eq_true_eq] at h
  exact h.1.1.1

theorem tryRelease_eases (s : State) (x : Train) : EasesSetpoints s (s.tryRelease x) := by
  unfold State.tryRelease; dsimp only
  split
  · next ready =>
    exact (setTrain_idle_eases s x _ (by rw [locked_of_releasable ready]; rfl) rfl).trans (changeAvailability_eases _)
  · exact .refl s

theorem completeStart_eases (s : State) (x : Train) (starting : (s.train x).state = .starting) :
    EasesSetpoints s (s.completeStart x) := by
  have self : (s.completeStart x).train x =
      { (s.train x).leave with state := .running, minRun := .load (s.trainCfg x).minRun s.now } := train_setTrain_self s x _
  refine easesSetpoints_of_one x rfl rfl rfl (fun y hy => train_setTrain_ne s _ hy)
    (fun y hy => setpoint_setSetpoint_ne _ _ hy) ?_ ?_ ?_ ?_ <;> rw [self]
  · rw [starting]; exact fun _ => rfl
  · exact nofun
  · exact fun h => absurd rfl h
  · exact fun _ => .inr (setpoint_setSetpoint_self _ x _)

theorem completeStop_eases (s : State) (x : Train) (stopping : (s.train x).state = .stopping) :
    EasesSetpoints s (s.completeStop x) :=
  (easesSetpoints_setTrain s x { (s.train x).leave with state := .stopped, minDown := .load (s.trainCfg x).minDown s.now }
    (fun h => nomatch h) fun h => absurd (stopping.symm.trans h) (by decide)).trans (leftActive_eases _ _)

theorem applyReport_eases (s : State) (x : Train) (report : Reported) : EasesSetpoints s (s.applyReport x report) := by
  unfold State.applyReport
  split
  case h_4 state => exact setTrain_idle_eases s x _ (by rw [state]; rfl) rfl
  case h_11 state => exact completeStart_eases s x state
  case h_19 state => exact completeStop_eases s x state
  case h_1 | h_2 | h_3 | h_5 | h_6 | h_9 | h_10 | h_14 | h_17 | h_18 => exact .refl s
  all_goals exact trip_eases s x _

theorem takeReport_eases (report : MeterReport) (s : State) (x : Train) : EasesSetpoints s (State.takeReport report s x) := by
  unfold State.takeReport; dsimp only
  split
  · exact .refl s
  · exact .refl s
  · next status _ _ =>
    exact (setTrain_same_eases s x
      { s.train x with reported := some status, output := (report.trains.get x).output.toNat } rfl).trans
      (applyReport_eases _ x status)

theorem makeAbsent_eases (s : State) (x : Train) : EasesSetpoints s (s.makeAbsent x) := by
  have gone := easesSetpoints_setTrain_zero s x
    { TrainRecord.afterReset (s.train x).lineHigh with sensitivity := (s.train x).sensitivity }
    nofun nofun nofun
  unfold State.makeAbsent; dsimp only
  split
  · exact gone
  · exact gone.trans (changeAvailability_eases _)

theorem applyInstalled_eases (s : State) (x : Train) : EasesSetpoints s (s.applyInstalled x) := by
  unfold State.applyInstalled
  split
  · split
    · next absent => exact setTrain_idle_eases s x _ (by rw [absent]; rfl) rfl
    · exact .refl s
  · exact makeAbsent_eases s x

theorem startRanOut_eases (s : State) (x : Train) : EasesSetpoints s (s.startRanOut x) := by
  unfold State.startRanOut; split
  · exact trip_eases s x _
  · exact setTrain_same_eases s x _ rfl

theorem stopRanOut_eases (s : State) (x : Train) : EasesSetpoints s (s.stopRanOut x) := by
  unfold State.stopRanOut; split
  · exact trip_eases s x _
  · exact setTrain_same_eases s x _ rfl

theorem raise_eases (s : State) (p : Port) (c : Cause) : EasesSetpoints s (s.raise p c) :=
  easesSetpoints_of_same rfl rfl (fun _ => rfl) rfl rfl

theorem cooldownRanOut_eases (s : State) (x : Train) : EasesSetpoints s (s.cooldownRanOut x) :=
  ((setTrain_same_eases s x { s.train x with cooldown := .ranOut } rfl).trans (raise_eases _ .pp _)).trans (tryRelease_eases _ x)

theorem fallingEdge_eases (s : State) (x : Train) : EasesSetpoints s (s.fallingEdge x) := by
  rw [fallingEdge_eq]
  split
  · exact (setTrain_same_eases s x (atLevel (s.train x) false) rfl).trans (trip_eases _ x _)
  · split
    · exact setTrain_same_eases s x _ rfl
    · exact setTrain_same_eases s x _ rfl

theorem risingEdge_eases (s : State) (x : Train) : EasesSetpoints s (s.risingEdge x) := by
  have noted := setTrain_same_eases s x { s.train x with lineHigh := true } rfl
  unfold State.risingEdge; dsimp only
  split
  · exact noted.trans (tryRelease_eases _ x)
  · exact noted

theorem fire_eases (s : State) (e : Event) : EasesSetpoints s (s.fire e) := by
  have f := fire_frame s e
  cases e with
  | loss => exact easesSetpoints_of_frame f
  | stale =>
    have marked := easesSetpoints_of_frame (markRecord_frame (((s.withInv { s.inv with metering := .stale }).withTrc
      { s.trc with permitHold := some (s.now + s.cfg.permitHold) }).raise .tp .inventory) .setStale)
    exact (easesSetpoints_of_same (s := s) (t := ((s.withInv { s.inv with metering := .stale }).withTrc
      { s.trc with permitHold := some (s.now + s.cfg.permitHold) }).raise .tp .inventory) rfl rfl (fun _ => rfl) rfl rfl).trans marked
  | minDown x => exact setTrain_same_eases s x _ rfl
  | minRun x => exact setTrain_same_eases s x _ rfl
  | start x => exact startRanOut_eases s x
  | stop x => exact stopRanOut_eases s x
  | cooldown x => exact cooldownRanOut_eases s x
  | prune x => exact setTrain_same_eases s x _ rfl
  | permitHold =>
    exact (easesSetpoints_of_same (s := s) (t := s.withTrc { s.trc with permitHold := none }) rfl rfl (fun _ => rfl) rfl rfl).trans
      (tripActive_eases _ .link)
  | dwell => exact easesSetpoints_of_same rfl rfl (fun _ => rfl) rfl rfl
  | linkLoss => exact easesSetpoints_of_frame f
  | activationHold => exact easesSetpoints_of_frame f
  | background =>
    refine easesSetpoints_of_same (frame_settings f) ?_ (fun x => by rw [train_congr (frame_trc f)]) (by rw [frame_du f])
      (by rw [frame_du f])
    show s.takeBackground.prof.mode = _
    unfold State.takeBackground; dsimp only
    split
    · split <;> rfl
    · rfl

/-! ### The invariant under what eases -/

/-- A passed image never lets min stable exceed the max of a train (R158). -/
theorem minStable_le_maxKw {s : State} (safe : s.SettingsSafe) (x : Train) : (s.trainCfg x).minStable ≤ (s.trainCfg x).maxKw := by
  unfold State.trainCfg State.cfg
  cases loaded : s.settings with
  | none => cases x <;> exact Nat.le_refl 0
  | some c =>
    obtain ⟨image, passed, rfl⟩ := safe c loaded
    have ok : fieldOk image (trainField x + 2) = true :=
      fieldOk_of_failingField_eq_none passed (by omega) (by cases x <;> decide)
    show ((Settings.ofImage image).trains.get x).minStable ≤ ((Settings.ofImage image).trains.get x).maxKw
    have get : (Settings.ofImage image).trains.get x = TrainSettings.ofImage image x := PerTrain.get_of _ _
    rw [get]
    have rule : fieldOk image (trainField x + 2) =
        decide (image.field (trainField x + 2) ≤ image.field (trainField x + 1)) := by
      cases x <;> rfl
    rw [rule] at ok
    exact of_decide_eq_true ok

/-- The invariant but for the bounds of the RUNNING trains' setpoints. -/
structure RestSafe (s : State) : Prop where
  trains : s.TrainsSafe
  discharge : 0 < s.du.target → ∀ x : Train, x.kind = .compressor → (s.train x).state.active = false
  charge : s.du.target < 0 → ∀ x : Train, x.kind = .turbine → (s.train x).state.active = false
  outside : s.prof.mode ≠ .service → s.du.target = 0
  rest : ∀ x : Train, (s.train x).state ≠ .running → s.du.setpoint.get x = 0

theorem restSafe_of_dispatchSafe {s : State} (h : s.DispatchSafe) : RestSafe s := ⟨h.trains, h.discharge, h.charge, h.outside, h.rest⟩

theorem Eases.inactive {s t : State} (e : Eases s t) {x : Train} (h : (s.train x).state.active = false) :
    (t.train x).state.active = false :=
  Bool.eq_false_iff.mpr fun active => Bool.eq_false_iff.mp h (e.active x active)

theorem Eases.trainsSafe {s t : State} (e : Eases s t) (h : s.TrainsSafe) : t.TrainsSafe where
  exclusive a b kinds active := e.inactive (h.exclusive a b kinds (e.active a active))
  oneStarting a b kinds ha hb := h.oneStarting a b kinds (e.starting a ha) (e.starting b hb)
  service a active := e.mode ▸ h.service a (e.active a active)

theorem Eases.restSafe {s t : State} (e : Eases s t) (h : RestSafe s) : RestSafe t where
  trains := e.trainsSafe h.trains
  discharge positive x hx := e.inactive (h.discharge (e.target ▸ positive) x hx)
  charge negative x hx := e.inactive (h.charge (e.target ▸ negative) x hx)
  outside away := e.target.trans (h.outside (e.mode ▸ away))
  rest x idle := by
    rcases e.rest x idle with zero | ⟨was, same⟩
    · exact zero
    · exact same.trans (h.rest x was)

theorem EasesSetpoints.dispatchSafe {s t : State} (e : EasesSetpoints s t) (h : s.DispatchSafe) : t.DispatchSafe :=
  have kept := e.toEases.restSafe (restSafe_of_dispatchSafe h)
  { settings := settingsSafe_congr e.settings h.settings
    trains := kept.trains
    discharge := kept.discharge
    charge := kept.charge
    outside := kept.outside
    rest := kept.rest
    running := fun x runs => by
      rw [trainCfg_congr e.settings]
      rcases e.running x runs with ⟨ran, same⟩ | least
      · rw [same]; exact h.running x ran
      · rw [least]; exact ⟨le_rfl, minStable_le_maxKw h.settings x⟩ }

theorem dispatchSafe_keptByFrames : KeptByFrames State.DispatchSafe where
  port {s} p r h := (easesSetpoints_of_same (s := s) (t := s.setPort p r) rfl rfl (fun _ => rfl) rfl rfl).dispatchSafe h
  link {s} h := (easesSetpoints_of_same (s := s) (t := s.withRsv s.linkAfterFrame) rfl rfl (fun _ => rfl) rfl rfl).dispatchSafe h

/-! ### A computing tick -/

/-- A START that is taken leaves the trains safe: its six conditions are what the invariant asks for (R94). -/
theorem startTrain_trainsSafe {s : State} (x : Train) (h : s.TrainsSafe) : (s.startTrain x).TrainsSafe := by
  unfold State.startTrain; dsimp only
  split
  case isFalse => exact h
  next may =>
  unfold State.mayStart at may
  simp only [Bool.and_eq_true, decide_eq_true_eq, Bool.not_eq_true'] at may
  obtain ⟨⟨⟨service, -⟩, noneStarting⟩, otherIdle⟩ := may
  have idle (y : Train) (hy : y.kind ≠ x.kind) : (s.train y).state.active = false := by
    refine Bool.eq_false_iff.mpr fun active => Bool.eq_false_iff.mp otherIdle ((anyActive_iff s _).mpr ⟨y, ?_, active⟩)
    revert hy; cases y <;> cases x <;> decide
  have notStarting (y : Train) (hy : y.kind = x.kind) : (s.train y).state ≠ .starting := fun starting => by
    refine Bool.eq_false_iff.mp noneStarting (List.any_eq_true.mpr ⟨y, (x.kind.mem_trains y).mpr hy, ?_⟩)
    exact decide_eq_true starting
  generalize hr : ({ (s.train x).leave with state := .starting, start := .load (s.trainCfg x).startTimeout s.now,
                                             history := (s.train x).history ++ [s.now] } : TrainRecord) = r
  have self := train_setTrain_self s x r
  have others (y : Train) (hy : y ≠ x) := train_setTrain_ne s r hy
  refine ⟨fun a b kinds active => ?_, fun a b kinds ha hb => ?_, fun a _ => service⟩
  · by_cases hb : b = x
    · subst hb
      have ha : a ≠ b := fun e => kinds (e ▸ rfl)
      rw [others a ha, idle a kinds] at active; cases active
    · rw [others b hb]
      by_cases ha : a = x
      · subst ha; exact idle b fun e => kinds e.symm
      · exact h.exclusive a b kinds (others a ha ▸ active)
  · by_cases hax : a = x
    · by_cases hbx : b = x
      · exact hax.trans hbx.symm
      · rw [others b hbx] at hb; exact absurd hb (notStarting b (hax ▸ kinds.symm))
    · rw [others a hax] at ha
      by_cases hbx : b = x
      · exact absurd ha (notStarting a (hbx ▸ kinds))
      · exact h.oneStarting a b kinds ha (others b hbx ▸ hb)

theorem stopTrain_eases (s : State) (x : Train) : EasesSetpoints s (s.stopTrain x) := by
  unfold State.stopTrain
  split
  · next may =>
    unfold State.mayStop at may
    simp only [Bool.and_eq_true, decide_eq_true_eq] at may
    obtain ⟨⟨-, running⟩, -⟩ := may
    exact easesSetpoints_setTrain_zero s x _ (fun _ => by rw [running]; rfl) nofun nofun
  · exact .refl s

theorem allocate_trainsSafe {s : State} (k : Kind) (h : s.TrainsSafe) : (s.allocate k).TrainsSafe := by
  unfold State.allocate; dsimp only
  split
  · unfold State.decideStart
    split
    · exact h
    · split
      · exact startTrain_trainsSafe _ h
      · exact h
  · split
    · unfold State.decideStop
      split
      · exact h
      · split
        · exact (stopTrain_eases s _).toEases.trainsSafe h
        · exact h
    · exact h

/-- A running capacity above 0 is that of some RUNNING train. -/
theorem exists_running_of_capacity {s : State} {k : Kind} (h : 0 < s.runningCapacity k) :
    ∃ x : Train, x.kind = k ∧ (s.train x).state = .running := by
  by_contra none
  have empty : (k.trains.filter fun t => decide ((s.train t).state = .running)) = [] :=
    List.filter_eq_nil_iff.mpr fun x hx runs => none ⟨x, (k.mem_trains x).mp hx, of_decide_eq_true runs⟩
  unfold State.runningCapacity State.sumMax at h
  rw [empty] at h
  exact absurd h (Nat.lt_irrefl 0)

/-- The dispatched target is held within the running capacity of its own sign (R126). -/
theorem formTarget_target_bounds (s : State) :
    (0 < s.formTarget.du.target → 0 < s.runningCapacity .turbine) ∧
    (s.formTarget.du.target < 0 → 0 < s.runningCapacity .compressor) := by
  unfold State.formTarget
  simp only [State.withDu_du]
  split <;> constructor <;> intro h <;> omega

/-- The target has the sign of the trains that may run (R126). -/
theorem formTarget_sign {s : State} (h : s.TrainsSafe) :
    (0 < s.formTarget.du.target → ∀ x : Train, x.kind = .compressor → (s.train x).state.active = false) ∧
    (s.formTarget.du.target < 0 → ∀ x : Train, x.kind = .turbine → (s.train x).state.active = false) := by
  have other {k : Kind} (capacity : 0 < s.runningCapacity k) (x : Train) (hx : x.kind ≠ k) : (s.train x).state.active = false := by
    obtain ⟨y, hy, runs⟩ := exists_running_of_capacity capacity
    exact h.exclusive y x (by rw [hy]; exact fun e => hx e.symm) (by rw [runs]; rfl)
  obtain ⟨positive, negative⟩ := formTarget_target_bounds s
  exact ⟨fun d x hx => other (positive d) x (by rw [hx]; decide), fun d x hx => other (negative d) x (by rw [hx]; decide)⟩

/-- Sharing the target gives every RUNNING train a setpoint within its bounds and every other train 0 (R127). -/
theorem setpointFor_bounds {s : State} (safe : s.SettingsSafe) (x : Train) :
    ((s.train x).state = .running → (s.trainCfg x).minStable ≤ s.setpointFor x ∧ s.setpointFor x ≤ (s.trainCfg x).maxKw) ∧
    ((s.train x).state ≠ .running → s.setpointFor x = 0) := by
  have least := minStable_le_maxKw safe x
  unfold State.setpointFor
  constructor
  · intro runs
    rw [if_pos runs]
    split
    · omega
    · exact ⟨le_rfl, least⟩
  · intro idle
    have alone : s.shares x = false := by unfold State.shares; simp [idle]
    rw [alone, if_neg (by decide), if_neg idle]

theorem setSetpoints_du (s : State) : s.setSetpoints.du = { s.du with setpoint := PerTrain.of s.setpointFor } := by
  unfold State.setSetpoints; dsimp only
  split
  · exact frame_du (markRecord_frame _ _)
  · rfl

theorem computeTarget_dispatchSafe {s : State} (service : s.prof.mode = .service) (h : s.DispatchSafe) :
    s.computeTarget.DispatchSafe := by
  have worked : (((s.applyClamps.formWorking).allocate .compressor).allocate .turbine).TrainsSafe := by
    refine allocate_trainsSafe _ (allocate_trainsSafe _ (Eases.trainsSafe (s := s) ?_ h.trains))
    have f : s.onlyChanges s.applyClamps.formWorking [.du, .slog, .gp] :=
      onlyChanges_trans (applyClamps_frame s) (onlyChanges_mono (withDu_frame _ _) (by decide))
    have du : s.applyClamps.formWorking.du.target = s.du.target ∧ s.applyClamps.formWorking.du.setpoint = s.du.setpoint := by
      show s.applyClamps.du.target = _ ∧ s.applyClamps.du.setpoint = _
      have clamps : ∃ d : DispatchUnit, d.target = s.du.target ∧ d.setpoint = s.du.setpoint ∧ s.applyClamps.du = d := by
        refine ⟨_, ?_, ?_, rfl⟩ <;> unfold State.applyClamps State.markRecord <;> dsimp only <;> split <;> split <;>
          (try split) <;> rfl
      obtain ⟨d, target, setpoint, e⟩ := clamps
      rw [e]; exact ⟨target, setpoint⟩
    exact (easesSetpoints_of_same (frame_settings f) (by rw [frame_prof f]) (fun x => by rw [train_congr (frame_trc f)])
      du.1 du.2).toEases
  have f := computeTarget_frame s
  have settings : s.computeTarget.SettingsSafe := settingsSafe_congr (frame_settings f) h.settings
  have mode : s.computeTarget.prof.mode = .service := by rw [frame_prof f]; exact service
  unfold State.computeTarget at settings mode ⊢
  generalize ((s.applyClamps.formWorking).allocate .compressor).allocate .turbine = u at worked settings mode ⊢
  have du := setSetpoints_du u.formTarget
  have train (x : Train) : u.formTarget.setSetpoints.train x = u.train x :=
    train_congr (frame_trc (setSetpoints_frame u.formTarget)) x
  have same : u.formTarget.setSetpoints.settings = u.formTarget.settings := frame_settings (setSetpoints_frame u.formTarget)
  have safe : u.formTarget.SettingsSafe := settingsSafe_congr same.symm settings
  obtain ⟨discharge, charge⟩ := formTarget_sign worked
  refine
    { settings := settings
      trains := ?_
      discharge := fun d x hx => by rw [train]; exact discharge (by rw [du] at d; exact d) x hx
      charge := fun d x hx => by rw [train]; exact charge (by rw [du] at d; exact d) x hx
      outside := fun away => absurd mode away
      running := fun x runs => ?_
      rest := fun x idle => ?_ }
  · refine ⟨fun a b => ?_, fun a b => ?_, fun a _ => mode⟩
    · rw [train, train]; exact worked.exclusive a b
    · rw [train, train]; exact worked.oneStarting a b
  · rw [du, trainCfg_congr same, PerTrain.get_of]; exact (setpointFor_bounds safe x).1 (train x ▸ runs)
  · rw [du, PerTrain.get_of]; exact (setpointFor_bounds safe x).2 (train x ▸ idle)

/-! ### Device time -/

/-- With no train active, a target and setpoints of 0 are safe in every mode. -/
theorem dispatchSafe_of_inactive {s : State} (safe : s.SettingsSafe) (idle : ∀ x, (s.train x).state.active = false)
    (target : s.du.target = 0) (setpoint : ∀ x, s.du.setpoint.get x = 0) : s.DispatchSafe where
  settings := safe
  trains :=
    { exclusive := fun _ b _ _ => idle b
      oneStarting := fun a _ _ ha _ => absurd ((idle a).symm.trans (by rw [ha])) (by decide)
      service := fun a ha => absurd ((idle a).symm.trans ha) (by decide) }
  discharge _ x _ := idle x
  charge _ x _ := idle x
  outside _ := target
  running x runs := absurd ((idle x).symm.trans (by rw [runs])) (by decide)
  rest x _ := setpoint x

theorem inactive_outside_service {s : State} (h : s.TrainsSafe) (away : s.prof.mode ≠ .service) (x : Train) :
    (s.train x).state.active = false :=
  Bool.eq_false_iff.mpr fun active => away (h.service x active)

theorem zeroed_setpoint (d : DispatchUnit) (x : Train) : d.zeroed.setpoint.get x = 0 := by cases x <;> rfl

theorem expireDwell_eases (s : State) : EasesSetpoints s s.expireDwell := by
  have f := expireDwell_frame s
  refine easesSetpoints_of_same (frame_settings f) (by rw [frame_prof f]) (fun x => by rw [train_congr (frame_trc f)]) ?_ ?_ <;>
    unfold State.expireDwell <;> split <;> (try split) <;> rfl

theorem dispatchPart_dispatchSafe {s : State} (h : s.DispatchSafe) : s.dispatchPart.DispatchSafe := by
  have rested := (expireDwell_eases s).dispatchSafe h
  unfold State.dispatchPart; dsimp only
  generalize s.expireDwell = u at rested
  split
  · next service =>
    split
    · exact computeTarget_dispatchSafe service rested
    · exact rested
  · next away =>
    exact dispatchSafe_of_inactive (settingsSafe_congr (s := u) rfl rested.settings)
      (fun x => inactive_outside_service (s := u) rested.trains away x) rfl (zeroed_setpoint u.du)

theorem dispatchSafe_keptByTime : KeptByTime State.DispatchSafe where
  time {s b} _ h := (easesSetpoints_of_same (s := s) (t := s.withTb b) rfl rfl (fun _ => rfl) rfl rfl).dispatchSafe h
  tick h := (easesSetpoints_of_frame (settlementPart_frame _)).dispatchSafe (dispatchPart_dispatchSafe h)
  fire e h := (fire_eases _ e).dispatchSafe h
  boundary m h := (easesSetpoints_of_frame (boundary_frame _ m)).dispatchSafe h

/-! ### Modes and checks -/

/-- Once every active train has been tripped none is active (R109, R110). -/
theorem tripActive_inactive (s : State) (reason : TripReason) (x : Train) :
    ((s.tripActive reason).train x).state.active = false := by
  have tripIfActive_eases (u : State) (y : Train) : EasesSetpoints u (State.tripIfActive reason u y) := by
    unfold State.tripIfActive; split
    · exact trip_eases u y reason
    · exact .refl u
  have self (u : State) (y : Train) : ((State.tripIfActive reason u y).train y).state.active = false := by
    unfold State.tripIfActive; split
    · rw [train_trip_self]; rfl
    · next idle => exact Bool.eq_false_iff.mpr idle
  have fold : ∀ (l : List Train) (u : State), x ∈ l → ((l.foldl (State.tripIfActive reason) u).train x).state.active = false := by
    intro l
    induction l with
    | nil => exact fun _ h => absurd h (by simp)
    | cons y l ih =>
      intro u hx
      rw [List.foldl_cons]
      rcases List.mem_cons.mp hx with rfl | hx
      · exact (easesSetpoints_foldl tripIfActive_eases l _).inactive (self u x)
      · exact ih _ hx
  exact fold Train.all s (Train.mem_all x)

theorem setMode_settings (s : State) (m : Mode) : (s.setMode m).settings = s.settings := rfl
theorem setMode_train (s : State) (m : Mode) (x : Train) : (s.setMode m).train x = s.train x := rfl

/-- A mode that no active train forbids and that leaves the target 0 outside SERVICE may be entered. -/
theorem setMode_dispatchSafe {s : State} (m : Mode) (h : s.DispatchSafe) (away : s.prof.mode ≠ .service) :
    (s.setMode m).DispatchSafe :=
  have idle := inactive_outside_service h.trains away
  dispatchSafe_of_inactive (settingsSafe_congr (setMode_settings s m) h.settings) idle (h.outside away) fun x =>
    h.rest x fun runs => absurd ((idle x).symm.trans (by rw [runs])) (by decide)

theorem leaveService_dispatchSafe {s : State} (safe : s.SettingsSafe) (idle : ∀ x, (s.train x).state.active = false) :
    s.leaveService.DispatchSafe :=
  dispatchSafe_of_inactive (settingsSafe_congr (frame_settings (leaveService_frame s)) safe)
    (fun x => by rw [train_congr (frame_trc (leaveService_frame s))]; exact idle x) rfl (zeroed_setpoint s.du)

theorem enterFaulted_dispatchSafe {s : State} (h : s.DispatchSafe) : s.enterFaulted.DispatchSafe :=
  leaveService_dispatchSafe
    (settingsSafe_congr ((frame_settings (tripActive_frame _ _)).trans (setMode_settings s _)) h.settings)
    (tripActive_inactive _ _)

theorem enterService_dispatchSafe {s : State} (h : s.DispatchSafe) (away : s.prof.mode ≠ .service) :
    s.enterService.DispatchSafe := by
  have entered := setMode_dispatchSafe .service h away
  unfold State.enterService; dsimp only
  generalize s.setMode .service = u at entered
  have taken : EasesSetpoints u u.takeSensitivities := easesSetpoints_of_same rfl rfl
    (fun x => by unfold State.takeSensitivities State.train; rw [State.withTrc_trc, PerTrain.get_of]) rfl rfl
  have released := (easesSetpoints_foldl tryRelease_eases Train.all u.takeSensitivities).dispatchSafe (taken.dispatchSafe entered)
  generalize Train.all.foldl State.tryRelease u.takeSensitivities = v at released
  have requested := (easesSetpoints_of_frame (requestReview_frame v)).dispatchSafe released
  exact (easesSetpoints_of_same (s := v.requestReview) (t := v.requestReview.withProf
    { v.requestReview.prof with background := some (v.requestReview.now + backgroundPeriod) }) rfl rfl (fun _ => rfl) rfl
    rfl).dispatchSafe requested

theorem clampSetpoints_dispatchSafe {s : State} (safe : s.SettingsSafe) (h : RestSafe s) : s.clampSetpoints.DispatchSafe := by
  have get (x : Train) : s.clampSetpoints.du.setpoint.get x =
      if (s.train x).state = .running then
        max (s.trainCfg x).minStable (min (s.trainCfg x).maxKw (s.du.setpoint.get x))
      else s.du.setpoint.get x := PerTrain.get_of _ _
  refine
    { settings := settingsSafe_congr (s := s) rfl safe
      trains := ⟨h.trains.exclusive, h.trains.oneStarting, h.trains.service⟩
      discharge := h.discharge
      charge := h.charge
      outside := h.outside
      running := fun x runs => ?_
      rest := fun x idle => ?_ }
  · have least := minStable_le_maxKw safe x
    have cfg : s.clampSetpoints.trainCfg x = s.trainCfg x := rfl
    rw [get, if_pos (show (s.train x).state = _ from runs), cfg]
    omega
  · rw [get, if_neg (show (s.train x).state ≠ _ from idle)]; exact h.rest x idle

theorem handValues_dispatchSafe {s : State} {image : Image} (passed : failingField image = none) (h : s.DispatchSafe) :
    (s.handValues image).DispatchSafe := by
  have rest : RestSafe (s.withSettings (some (.ofImage image))) :=
    let r := restSafe_of_dispatchSafe h
    ⟨⟨r.trains.exclusive, r.trains.oneStarting, r.trains.service⟩, r.discharge, r.charge, r.outside, r.rest⟩
  unfold State.handValues; dsimp only
  refine (easesSetpoints_of_frame (firstLinkLoad_frame _ _)).dispatchSafe (clampSetpoints_dispatchSafe ?_ ?_)
  · refine settingsSafe_congr ?_ (settingsSafe_ofImage passed s)
    rw [(easesSetpoints_foldl applyInstalled_eases Train.all _).settings, frame_settings (applyDefaultMode_frame _ _),
      frame_settings (applyLength_frame _ _), frame_settings (loadInventory_frame _ _)]
  · refine (easesSetpoints_foldl applyInstalled_eases Train.all _).toEases.restSafe ?_
    refine (easesSetpoints_of_frame (applyDefaultMode_frame _ _)).toEases.restSafe ?_
    refine (easesSetpoints_of_frame (applyLength_frame _ _)).toEases.restSafe ?_
    exact (easesSetpoints_of_frame (loadInventory_frame _ _)).toEases.restSafe rest

/-- The Profile Store changes, the mode does not. -/
theorem withProf_eases (s : State) {f : Profile} (mode : f.mode = s.prof.mode := by rfl) : EasesSetpoints s (s.withProf f) :=
  easesSetpoints_of_same rfl mode (fun _ => rfl) rfl rfl

theorem checkPassed_dispatchSafe {s : State} (purpose : Purpose) {image : Image} (passed : failingField image = none)
    (h : s.DispatchSafe) : (s.checkPassed purpose image).DispatchSafe := by
  unfold State.checkPassed; dsimp only
  refine dispatchSafe_keptByFrames.raise .pp _ ?_
  have handed := handValues_dispatchSafe passed ((withProf_eases s (f := { s.prof with
    bad := false, lastCheck := .pass, failingField := 0, activity := .idle, siteCode := image.field 1 }) rfl).dispatchSafe h)
  generalize State.handValues _ image = u at handed
  unfold State.modeAfterPass
  split
  · next checking => exact setMode_dispatchSafe _ handed (by rw [checking]; decide)
  · next maintenance => exact enterService_dispatchSafe handed (by rw [maintenance]; decide)
  · exact handed

theorem checkFailed_dispatchSafe {s : State} (purpose : Purpose) (field : Nat) (h : s.DispatchSafe) :
    (s.checkFailed purpose field).DispatchSafe := by
  unfold State.checkFailed; dsimp only
  refine dispatchSafe_keptByFrames.raise .pp _ ?_
  have noted := (withProf_eases s (f := { s.prof with
    bad := true, lastCheck := .fail, failingField := field, activity := .idle }) rfl).dispatchSafe h
  generalize s.withProf _ = u at noted
  unfold State.modeAfterFail
  split
  · next checking => exact setMode_dispatchSafe _ noted (by rw [checking]; decide)
  · exact enterFaulted_dispatchSafe noted
  · exact noted

/-! ### Every step -/

theorem afterReset_train_state (working stored : Image) (lines : PerTrain Bool) (draws : Nat) (pending : List Instr) (x : Train) :
    ((State.afterReset working stored lines draws pending).train x).state = .absent := by cases x <;> rfl

theorem afterReset_dispatchSafe (working stored : Image) (lines : PerTrain Bool) (draws : Nat) (pending : List Instr) :
    (State.afterReset working stored lines draws pending).DispatchSafe :=
  dispatchSafe_of_inactive nofun (fun x => by rw [afterReset_train_state]; rfl) rfl fun x => by cases x <;> rfl

theorem workMeter_eases (s : State) (report : MeterReport) : EasesSetpoints s (s.workMeter report) := by
  have f : s.onlyChanges ((s.workTotalisers report).driftTest report.pressure.toNat) [.inv, .pp, .slog, .tp, .prj] :=
    onlyChanges_trans (onlyChanges_mono (workTotalisers_frame s report) (by decide))
      (onlyChanges_mono (driftTest_frame _ _) (by decide))
  unfold State.workMeter; dsimp only
  refine (easesSetpoints_of_frame f).trans ?_
  generalize (s.workTotalisers report).driftTest report.pressure.toNat = u
  refine (easesSetpoints_of_frame (withInv_frame u { u.inv with lastMeter := u.now })).trans ?_
  refine (easesSetpoints_foldl (takeReport_eases report) Train.all _).trans ?_
  show EasesSetpoints (State.takeReports _ report) _
  generalize (u.withInv _).takeReports report = v
  unfold State.recover
  split
  · exact easesSetpoints_of_same (s := v) rfl rfl (fun _ => rfl) rfl rfl
  · exact easesSetpoints_of_same (s := v) rfl rfl (fun _ => rfl) rfl rfl

theorem exec_dispatchSafe (c : Instr) {s t : State} (h : s.DispatchSafe) (e : exec c s = .next t) : t.DispatchSafe := by
  have f := exec_wideFrame e
  have answered (u : State) (p : Port) (k : Byte) (r : Result) (l : List Byte) (hu : u.DispatchSafe) :
      (u.respond p k r l).DispatchSafe := dispatchSafe_keptByFrames.respond p k r l hu
  cases c
  case powerOnReset => cases e; exact afterReset_dispatchSafe ..
  case pinReset =>
    cases e; split
    · exact afterReset_dispatchSafe ..
    · exact h
  case meter report =>
    cases e
    refine dispatchSafe_keptByFrames.takeFrame (fun u hu => ?_) h
    split
    · exact answered _ _ _ _ _ ((workMeter_eases u report).dispatchSafe hu)
    · exact answered _ _ _ _ _ hu
  case declareAvailable =>
    cases e; split
    case isFalse => exact h
    refine dispatchSafe_keptByFrames.takeFrame (fun u hu => ?_) h
    split
    · exact answered _ _ _ _ _ hu
    split
    · exact answered _ _ _ _ _ hu
    split
    · next offline =>
      exact answered _ _ _ _ _
        (((setTrain_idle_eases u _ _ (by rw [offline]; rfl) rfl).trans (changeAvailability_eases _)).dispatchSafe hu)
    · exact answered _ _ _ _ _ hu
  case declareOffline =>
    cases e
    refine dispatchSafe_keptByFrames.takeFrame (fun u hu => ?_) h
    split
    · exact answered _ _ _ _ _ hu
    split
    · next stopped =>
      exact answered _ _ _ _ _
        (((setTrain_idle_eases u _ _ (by rw [stopped]; rfl) rfl).trans (changeAvailability_eases _)).dispatchSafe hu)
    · exact answered _ _ _ _ _ hu
  case release =>
    cases e
    refine dispatchSafe_keptByFrames.takeFrame (fun u hu => ?_) h
    split
    · exact answered _ _ _ _ _ hu
    split
    · exact answered _ _ _ _ _ (((setTrain_same_eases u _ _).trans (tryRelease_eases _ _)).dispatchSafe hu)
    · exact answered _ _ _ _ _ hu
  case profileWrite =>
    cases e
    refine dispatchSafe_keptByFrames.takeFrame (fun u hu => ?_) h
    split
    · exact answered _ _ _ _ _ hu
    · exact answered _ _ _ _ _ ((withProf_eases u).dispatchSafe hu)
  case profileStore =>
    cases e
    refine dispatchSafe_keptByFrames.takeFrame (fun u hu => ?_) h
    split
    · exact answered _ _ _ _ _ hu
    · exact answered _ _ _ _ _ ((withProf_eases u).dispatchSafe hu)
  case profileStoreCompletion =>
    cases e; split
    · exact dispatchSafe_keptByFrames.raise _ _ ((withProf_eases s).dispatchSafe h)
    · exact h
  case profileLoad =>
    cases e
    refine dispatchSafe_keptByFrames.takeFrame (fun u hu => ?_) h
    split
    · exact answered _ _ _ _ _ hu
    · exact answered _ _ _ _ _ (((withProf_eases u (f := { u.prof with working := u.prof.stored, bad := true })).trans
        (withProf_eases _)).dispatchSafe hu)
  case profileCheck =>
    cases e
    refine dispatchSafe_keptByFrames.takeFrame (fun u hu => ?_) h
    split
    · exact answered _ _ _ _ _ hu
    · exact answered _ _ _ _ _ ((withProf_eases u).dispatchSafe hu)
  case enterService =>
    cases e
    refine dispatchSafe_keptByFrames.takeFrame (fun u hu => ?_) h
    split
    · exact answered _ _ _ _ _ hu
    · exact answered _ _ _ _ _ ((withProf_eases u).dispatchSafe hu)
  case profileMemoryFault => cases e; exact (withProf_eases s).dispatchSafe h
  case profileCheckCompletion =>
    cases e; split
    · split
      · next passed => exact checkPassed_dispatchSafe _ passed h
      · exact checkFailed_dispatchSafe _ _ h
    · exact h
  case enterMaintenance =>
    cases e
    refine dispatchSafe_keptByFrames.takeFrame (fun u hu => ?_) h
    split
    · exact answered _ _ _ _ _ hu
    · exact answered _ _ _ _ _ hu
    · next faulted => exact answered _ _ _ _ _ (setMode_dispatchSafe _ hu (by rw [faulted]; decide))
    · split
      · exact answered _ _ _ _ _ hu
      · next idle =>
        refine answered _ _ _ _ _ (leaveService_dispatchSafe (settingsSafe_congr (setMode_settings u _) hu.settings) fun x => ?_)
        rw [setMode_train]
        simp only [Bool.or_eq_true, not_or] at idle
        refine Bool.eq_false_iff.mpr fun active => ?_
        cases kind : x.kind with
        | compressor => exact idle.1 ((anyActive_iff u _).mpr ⟨x, kind, active⟩)
        | turbine => exact idle.2 ((anyActive_iff u _).mpr ⟨x, kind, active⟩)
  case tripFallingEdge =>
    cases e; split
    · exact (fallingEdge_eases s _).dispatchSafe h
    · exact h
  case tripRisingEdge =>
    cases e; split
    · exact h
    · exact (risingEdge_eases s _).dispatchSafe h
  case dispatchTick | intervalBoundary | lossTick | staleOnset | minDownExpiry | minRunExpiry | startTimerExpiry | stopTimerExpiry
    | cooldownExpiry | startHistoryPrune | permitHoldExpiry | dwellExpiry | gridLinkLoss | activationHoldExpiry | backgroundCheck =>
    exact dispatchSafe_keptByTime.exec (isTimeEvent_of_parts rfl) h e
  all_goals
    dsimp only [widePartsOf, partsOf] at f
    exact (easesSetpoints_of_frame f).dispatchSafe h

/-- Settles O58: only a START makes a train active, its conditions keep the kinds apart, and the tick that gives it forms the target
within the running capacity of one sign. -/
theorem stepsKeepTheTrainsSafe : Obligations.StepsKeepTheTrainsSafe := fun s _ h e =>
  step_keeps (fun q h => (easesSetpoints_of_same (s := s) (t := s.withPending q) rfl rfl (fun _ => rfl) rfl rfl).dispatchSafe h)
    (fun h => dispatchSafe_keptByTime.passMillisecond (dispatchSafe_keptByFrames.port .tp _ h))
    (fun c _ h e => exec_dispatchSafe c h e) h e

end Sys2Proof.Proofs
end

section
/-! Operations that leave the check in flight, the output queues and the schedule alone: they raise causes, mark the open record, request
reviews and move the other blocks (`Quiet`). The interval boundary disturbs the schedule, but not the check nor the queues
(`KeepsCheck`). -/

namespace Sys2Proof.Proofs
open Sys2Proof Sys2Proof.Machine

/-! ### The two relations -/

/-- From `s` to `t` the check in flight and its mode stay, and of each port only the cause flags change; a review may start where no
job ran (R70). -/
structure KeepsCheck (s t : State) : Prop where
  running : t.prj.running = s.prj.running ∨ s.prj.running = none ∧ ∃ snap, t.prj.running = some (.review snap)
  waiting : t.prj.waiting = s.prj.waiting
  checkMode : t.prj.checkMode = s.prj.checkMode
  applied : t.prj.defaultApplied = s.prj.defaultApplied
  ports : ∀ p, ∃ causes, t.port p = { s.port p with causes := causes }
  settings : t.settings = s.settings
  mode : t.prof.mode = s.prof.mode
  resetHeld : t.resetHeld = s.resetHeld

/-- And the book, the clock and the closed records stay; the granted activation stays or becomes 0, the open record is only marked or adds
to its quantities. -/
structure Quiet (s t : State) : Prop extends KeepsCheck s t where
  book : t.book = s.book
  clock : t.tb.clock = s.tb.clock
  ring : t.slog.ring = s.slog.ring
  current : t.slog.current.map OpenRecord.interval = s.slog.current.map OpenRecord.interval
  granted : t.rsv.granted = s.rsv.granted ∨ t.rsv.granted = 0

theorem KeepsCheck.trans {s t u : State} (h : KeepsCheck s t) (g : KeepsCheck t u) : KeepsCheck s u where
  running := by
    rcases g.running with same | ⟨idle, snap, review⟩
    · rcases h.running with same' | ⟨idle, snap, review⟩
      · exact .inl (same.trans same')
      · exact .inr ⟨idle, snap, same.trans review⟩
    · rcases h.running with same | ⟨_, _, busy⟩
      · exact .inr ⟨same.symm.trans idle, snap, review⟩
      · rw [busy] at idle; cases idle
  waiting := g.waiting.trans h.waiting
  checkMode := g.checkMode.trans h.checkMode
  applied := g.applied.trans h.applied
  ports p := by
    obtain ⟨x, hx⟩ := h.ports p
    obtain ⟨y, hy⟩ := g.ports p
    exact ⟨y, by rw [hy, hx]⟩
  settings := g.settings.trans h.settings
  mode := g.mode.trans h.mode
  resetHeld := g.resetHeld.trans h.resetHeld

theorem Quiet.trans {s t u : State} (h : Quiet s t) (g : Quiet t u) : Quiet s u where
  toKeepsCheck := h.toKeepsCheck.trans g.toKeepsCheck
  book := g.book.trans h.book
  clock := g.clock.trans h.clock
  ring := g.ring.trans h.ring
  current := g.current.trans h.current
  granted := by
    rcases g.granted with same | zero
    · rw [same]; exact h.granted
    · exact .inr zero

/-- The candidate in flight stays (R64). -/
theorem KeepsCheck.inFlight {s t : State} (h : KeepsCheck s t) : t.inFlight = s.inFlight := by
  unfold State.inFlight
  rw [h.waiting]
  rcases h.running with same | ⟨idle, snap, review⟩
  · rw [same]
  · rw [idle, review]

/-! ### Single changes -/

theorem port_of_frame {s t : State} {l : List Part} (f : s.onlyChanges t l) (p : Port) (h : portPart p ∉ l) : t.port p = s.port p := by
  cases p <;> exact f _ h

/-- What touches neither the schedule, the check, the queues nor the mode. -/
theorem quiet_of_frame {s t : State} {l : List Part} (f : s.onlyChanges t l)
    (h : ∀ x ∈ l, x ∈ [Part.inv, .trc, .du, .draws, .pending] := by decide) : Quiet s t where
  running := .inl (by rw [frame_prj f (fun m => absurd (h _ m) (by decide))])
  waiting := by rw [frame_prj f (fun m => absurd (h _ m) (by decide))]
  checkMode := by rw [frame_prj f (fun m => absurd (h _ m) (by decide))]
  applied := by rw [frame_prj f (fun m => absurd (h _ m) (by decide))]
  ports p := ⟨(s.port p).causes, port_of_frame f p fun m => absurd (h _ m) (by cases p <;> decide)⟩
  settings := frame_settings f fun m => absurd (h _ m) (by decide)
  mode := by rw [frame_prof f (fun m => absurd (h _ m) (by decide))]
  resetHeld := frame_resetHeld f fun m => absurd (h _ m) (by decide)
  book := frame_book f fun m => absurd (h _ m) (by decide)
  clock := by rw [frame_tb f (fun m => absurd (h _ m) (by decide))]
  ring := by rw [frame_slog f (fun m => absurd (h _ m) (by decide))]
  current := by rw [frame_slog f (fun m => absurd (h _ m) (by decide))]
  granted := .inl (by rw [frame_rsv f (fun m => absurd (h _ m) (by decide))])

theorem Quiet.refl (s : State) : Quiet s s := quiet_of_frame (onlyChanges_refl s [])

theorem withInv_quiet (s : State) (x : Inventory) : Quiet s (s.withInv x) := quiet_of_frame (withInv_frame s x)
theorem withTrc_quiet (s : State) (x : TrainController) : Quiet s (s.withTrc x) := quiet_of_frame (withTrc_frame s x)
theorem withDu_quiet (s : State) (x : DispatchUnit) : Quiet s (s.withDu x) := quiet_of_frame (withDu_frame s x)
theorem setTrain_quiet (s : State) (x : Train) (r : TrainRecord) : Quiet s (s.setTrain x r) := withTrc_quiet s _
theorem setSetpoint_quiet (s : State) (x : Train) (kw : Nat) : Quiet s (s.setSetpoint x kw) := withDu_quiet s _

/-- A change of the engine alone that starts at most a review. -/
theorem withPrj_quiet (s : State) (e : Engine)
    (running : e.running = s.prj.running ∨ s.prj.running = none ∧ ∃ snap, e.running = some (.review snap))
    (waiting : e.waiting = s.prj.waiting := by rfl) (checkMode : e.checkMode = s.prj.checkMode := by rfl)
    (applied : e.defaultApplied = s.prj.defaultApplied := by rfl) : Quiet s (s.withPrj e) where
  running := running
  waiting := waiting
  checkMode := checkMode
  applied := applied
  ports _ := ⟨_, rfl⟩
  settings := rfl
  mode := rfl
  resetHeld := rfl
  book := rfl
  clock := rfl
  ring := rfl
  current := rfl
  granted := .inl rfl

theorem withProf_quiet (s : State) {f : Profile} (mode : f.mode = s.prof.mode := by rfl) : Quiet s (s.withProf f) where
  running := .inl rfl
  waiting := rfl
  checkMode := rfl
  applied := rfl
  ports _ := ⟨_, rfl⟩
  settings := rfl
  mode := mode
  resetHeld := rfl
  book := rfl
  clock := rfl
  ring := rfl
  current := rfl
  granted := .inl rfl

theorem withRsv_quiet (s : State) (r : Reserve) (granted : r.granted = s.rsv.granted ∨ r.granted = 0) : Quiet s (s.withRsv r) where
  running := .inl rfl
  waiting := rfl
  checkMode := rfl
  applied := rfl
  ports _ := ⟨_, rfl⟩
  settings := rfl
  mode := rfl
  resetHeld := rfl
  book := rfl
  clock := rfl
  ring := rfl
  current := rfl
  granted := granted

theorem withTb_quiet (s : State) {b : TimeBase} (clock : b.clock = s.tb.clock := by rfl) : Quiet s (s.withTb b) where
  running := .inl rfl
  waiting := rfl
  checkMode := rfl
  applied := rfl
  ports _ := ⟨_, rfl⟩
  settings := rfl
  mode := rfl
  resetHeld := rfl
  book := rfl
  clock := clock
  ring := rfl
  current := rfl
  granted := .inl rfl

theorem withSlog_quiet (s : State) {l : SettlementLog} (ring : l.ring = s.slog.ring)
    (current : l.current.map OpenRecord.interval = s.slog.current.map OpenRecord.interval) : Quiet s (s.withSlog l) where
  running := .inl rfl
  waiting := rfl
  checkMode := rfl
  applied := rfl
  ports _ := ⟨_, rfl⟩
  settings := rfl
  mode := rfl
  resetHeld := rfl
  book := rfl
  clock := rfl
  ring := ring
  current := current
  granted := .inl rfl

theorem raise_quiet (s : State) (p : Port) (c : Cause) : Quiet s (s.raise p c) where
  running := .inl rfl
  waiting := rfl
  checkMode := rfl
  applied := rfl
  ports q := by
    by_cases h : q = p
    · subst h; exact ⟨_, port_raise s q c⟩
    · exact ⟨(s.port q).causes, port_raise_ne s p q c h⟩
  settings := rfl
  mode := rfl
  resetHeld := rfl
  book := rfl
  clock := rfl
  ring := rfl
  current := rfl
  granted := .inl rfl

theorem markRecord_quiet (s : State) (f : RecordFlags → RecordFlags) : Quiet s (s.markRecord f) := by
  unfold State.markRecord; split
  · exact .refl s
  · next r hr => exact withSlog_quiet s rfl (by rw [hr]; rfl)

theorem startReview_quiet {s : State} (idle : s.prj.running = none) : Quiet s s.startReview := by
  unfold State.startReview; split
  · exact .refl s
  · exact withPrj_quiet s _ (.inr ⟨idle, _, rfl⟩)

theorem idle_of_canReview {s : State} (h : s.canReview = true) : s.prj.running = none := by
  unfold State.canReview at h
  simp only [Bool.and_eq_true, Option.isNone_iff_eq_none] at h
  exact h.1.1

theorem requestReview_quiet (s : State) : Quiet s s.requestReview := by
  unfold State.requestReview; split
  · next can => exact startReview_quiet (idle_of_canReview can)
  · exact withPrj_quiet s _ (.inl rfl)

theorem startPendingReview_quiet (s : State) : Quiet s s.startPendingReview := by
  unfold State.startPendingReview; split
  · next can => exact startReview_quiet (idle_of_canReview (Bool.and_eq_true_iff.mp can).2)
  · exact .refl s

theorem foldl_quiet {α : Type} {f : State → α → State} (h : ∀ (s : State) (a : α), Quiet s (f s a)) :
    ∀ (as : List α) (s : State), Quiet s (as.foldl f s)
  | [], s => .refl s
  | a :: as, s => (h s a).trans (foldl_quiet h as (f s a))

/-! ### Trains -/

theorem changeAvailability_quiet (s : State) : Quiet s s.changeAvailability :=
  ((withTrc_quiet s _).trans (raise_quiet _ .tp .capacity)).trans (requestReview_quiet _)

theorem leftActive_quiet (s : State) (k : Kind) : Quiet s (s.leftActive k) := quiet_of_frame (leftActive_frame s k)

theorem trip_quiet (s : State) (x : Train) (reason : TripReason) : Quiet s (s.trip x reason) := by
  unfold State.trip; dsimp only
  have told := (((setTrain_quiet s x { (s.train x).leave with state := .tripped, reason := some reason }).trans
    (setSetpoint_quiet _ x 0)).trans (raise_quiet _ .pp .trip)).trans (changeAvailability_quiet _)
  split
  · exact told.trans (leftActive_quiet _ _)
  · exact told

theorem tripActive_quiet (s : State) (reason : TripReason) : Quiet s (s.tripActive reason) :=
  foldl_quiet (fun s x => by
    unfold State.tripIfActive; split
    · exact trip_quiet s x reason
    · exact .refl s) _ s

theorem tryRelease_quiet (s : State) (x : Train) : Quiet s (s.tryRelease x) := by
  unfold State.tryRelease; dsimp only; split
  · exact (setTrain_quiet s x _).trans (changeAvailability_quiet _)
  · exact .refl s

theorem applyReport_quiet (s : State) (x : Train) (report : Reported) : Quiet s (s.applyReport x report) := by
  unfold State.applyReport; split
  case h_4 => exact quiet_of_frame (lock_frame s x)
  case h_11 => exact quiet_of_frame (completeStart_frame s x)
  case h_19 => exact quiet_of_frame (completeStop_frame s x)
  case h_1 | h_2 | h_3 | h_5 | h_6 | h_9 | h_10 | h_14 | h_17 | h_18 => exact .refl s
  all_goals exact trip_quiet s x _

theorem takeReport_quiet (report : MeterReport) (s : State) (x : Train) : Quiet s (State.takeReport report s x) := by
  unfold State.takeReport; dsimp only; split
  · exact .refl s
  · exact .refl s
  · exact (setTrain_quiet s x _).trans (applyReport_quiet _ x _)

theorem applyInstalled_quiet (s : State) (x : Train) : Quiet s (s.applyInstalled x) := by
  unfold State.applyInstalled; split
  · split
    · exact setTrain_quiet s x _
    · exact .refl s
  · have gone := (setTrain_quiet s x { TrainRecord.afterReset (s.train x).lineHigh with sensitivity := (s.train x).sensitivity }).trans
      (setSetpoint_quiet _ x 0)
    unfold State.makeAbsent; dsimp only; split
    · exact gone
    · exact gone.trans (changeAvailability_quiet _)

theorem declare_quiet (s : State) (x : Train) (starts : Nat) : Quiet s (s.declare x starts) :=
  (setTrain_quiet s x _).trans (changeAvailability_quiet _)

theorem fallingEdge_quiet (s : State) (x : Train) : Quiet s (s.fallingEdge x) := by
  rw [fallingEdge_eq]; split
  · exact (setTrain_quiet s x _).trans (trip_quiet _ x _)
  · split
    · exact setTrain_quiet s x _
    · exact setTrain_quiet s x _

theorem risingEdge_quiet (s : State) (x : Train) : Quiet s (s.risingEdge x) := by
  have noted := setTrain_quiet s x { s.train x with lineHigh := true }
  unfold State.risingEdge; dsimp only; split
  · exact noted.trans (tryRelease_quiet _ x)
  · exact noted

/-! ### Metering -/

theorem clampEvent_quiet (s : State) (f : RecordFlags → RecordFlags) : Quiet s (s.clampEvent f) :=
  (raise_quiet s .pp .clamp).trans (markRecord_quiet _ f)

theorem applyMass_quiet (s : State) (x : Train) (d : Nat) : Quiet s (s.applyMass x d) := by
  unfold State.applyMass; dsimp only; split
  · split
    · exact (withInv_quiet s _).trans (clampEvent_quiet _ _)
    · exact withInv_quiet s _
  · exact .refl s

theorem applyHeat_quiet (s : State) (k : Tier) (increase : Bool) (d : Nat) : Quiet s (s.applyHeat k increase d) := by
  unfold State.applyHeat; dsimp only; split
  · split
    · exact (withInv_quiet s _).trans (clampEvent_quiet _ _)
    · exact withInv_quiet s _
  · exact .refl s

theorem workMass_quiet (elapsed : Nat) (report : MeterReport) (s : State) (x : Train) :
    Quiet s (State.workMass elapsed report s x) := by
  unfold State.workMass; dsimp only; split
  · split
    · exact withInv_quiet s _
    · split
      · exact (withInv_quiet s _).trans (applyMass_quiet _ x _)
      · exact (withInv_quiet s _).trans (clampEvent_quiet _ _)
  · exact .refl s

theorem workHeat_quiet (elapsed : Nat) (k : Tier) (increase : Bool) (base : Option Word) (value : Word) (s : State) :
    Quiet s (s.workHeat elapsed k increase base value) := by
  unfold State.workHeat; split
  · exact .refl s
  · split
    · exact applyHeat_quiet s k increase _
    · exact clampEvent_quiet s _

theorem workTier_quiet (elapsed : Nat) (report : MeterReport) (s : State) (k : Tier) :
    Quiet s (State.workTier elapsed report s k) := by
  unfold State.workTier; dsimp only
  exact (((withInv_quiet s _).trans (workHeat_quiet elapsed k true _ _ _)).trans (withInv_quiet _ _)).trans
    (workHeat_quiet elapsed k false _ _ _)

theorem workTotalisers_quiet (s : State) (report : MeterReport) : Quiet s (s.workTotalisers report) :=
  (foldl_quiet (workMass_quiet s.elapsed report) _ s).trans (foldl_quiet (workTier_quiet s.elapsed report) _ _)

theorem driftTest_quiet (s : State) (pressure : Nat) : Quiet s (s.driftTest pressure) := by
  unfold State.driftTest; dsimp only; split
  · split
    · exact (withInv_quiet s _).trans ((((withInv_quiet _ _).trans (raise_quiet _ .pp .drift)).trans
        (raise_quiet _ .tp .inventory)).trans (requestReview_quiet _))
    · exact withInv_quiet s _
  · exact .refl s

theorem recover_quiet (s : State) : Quiet s s.recover := by
  unfold State.recover; split
  · exact ((withInv_quiet s _).trans (withTrc_quiet _ _)).trans (raise_quiet _ .tp .inventory)
  · exact .refl s

theorem workMeter_quiet (s : State) (report : MeterReport) : Quiet s (s.workMeter report) := by
  unfold State.workMeter; dsimp only
  exact ((((workTotalisers_quiet s report).trans (driftTest_quiet _ _)).trans (withInv_quiet _ _)).trans
    (foldl_quiet (takeReport_quiet report) Train.all _)).trans ((withDu_quiet _ _).trans (recover_quiet _))

theorem takeAnchor_quiet (s : State) (pressure : Nat) (heat : PerTier Word) : Quiet s (s.takeAnchor pressure heat) := by
  have set : Quiet s (s.anchored pressure heat) := withInv_quiet s _
  unfold State.takeAnchor; dsimp only; split
  · exact ((set.trans (raise_quiet _ .pp .clamp)).trans (raise_quiet _ .tp .inventory)).trans (requestReview_quiet _)
  · exact (set.trans (raise_quiet _ .tp .inventory)).trans (requestReview_quiet _)

theorem loadInventory_quiet (s : State) (c : Settings) : Quiet s (s.loadInventory c) := by
  unfold State.loadInventory; dsimp only; split
  · exact ((withInv_quiet s _).trans (raise_quiet _ .pp .clamp)).trans (markRecord_quiet _ _)
  · exact withInv_quiet s _

/-! ### Ticks and events -/

theorem applyClamps_quiet (s : State) : Quiet s s.applyClamps := by
  unfold State.applyClamps; dsimp only
  split <;> split
  · exact ((withDu_quiet s _).trans (markRecord_quiet _ _)).trans (raise_quiet _ .gp .derated)
  · exact (withDu_quiet s _).trans (raise_quiet _ .gp .derated)
  · exact (withDu_quiet s _).trans (markRecord_quiet _ _)
  · exact withDu_quiet s _

theorem setSetpoints_quiet (s : State) : Quiet s s.setSetpoints := by
  unfold State.setSetpoints; dsimp only; split
  · exact (withDu_quiet s _).trans (markRecord_quiet _ _)
  · exact withDu_quiet s _

theorem computeTarget_quiet (s : State) : Quiet s s.computeTarget :=
  ((((applyClamps_quiet s).trans (withDu_quiet _ _)).trans (quiet_of_frame (allocate_frame _ .compressor))).trans
    (quiet_of_frame (allocate_frame _ .turbine))).trans ((withDu_quiet _ _).trans (setSetpoints_quiet _))

theorem settlementPart_quiet (s : State) : Quiet s s.settlementPart := by
  unfold State.settlementPart; split
  · exact .refl s
  · next r hr => exact withSlog_quiet s rfl (by rw [hr]; rfl)

theorem tickParts_quiet (s : State) : Quiet s s.tickParts := by
  have rested : Quiet s s.expireDwell := quiet_of_frame (expireDwell_frame s)
  have dispatched : Quiet s s.dispatchPart := by
    unfold State.dispatchPart; dsimp only; split
    · split
      · exact rested.trans (computeTarget_quiet _)
      · exact rested
    · exact rested.trans (withDu_quiet _ _)
  exact dispatched.trans (settlementPart_quiet _)

theorem becomeStale_quiet (s : State) : Quiet s s.becomeStale :=
  (((withInv_quiet s _).trans (withTrc_quiet _ _)).trans (raise_quiet _ .tp .inventory)).trans (markRecord_quiet _ _)

theorem loseLink_quiet (s : State) : Quiet s s.loseLink := by
  unfold State.loseLink; dsimp only
  refine (((withRsv_quiet s _ ?_).trans (raise_quiet _ .pp .gridLost)).trans (raise_quiet _ .tp .gridLost)).trans
    (markRecord_quiet _ _)
  dsimp only; split
  · exact .inl rfl
  · exact .inr rfl

theorem takeBackground_quiet (s : State) : Quiet s s.takeBackground := by
  unfold State.takeBackground; dsimp only; split
  · split
    · exact withProf_quiet s
    · exact (withProf_quiet s).trans (withProf_quiet _)
  · exact withProf_quiet s

theorem fire_quiet (s : State) (e : Event) : Quiet s (s.fire e) := by
  cases e with
  | loss => exact (withTb_quiet s).trans (quiet_of_frame (applyLosses_frame _))
  | stale => exact becomeStale_quiet s
  | minDown x => exact setTrain_quiet s x _
  | minRun x => exact setTrain_quiet s x _
  | start x =>
    show Quiet s (s.startRanOut x)
    unfold State.startRanOut; split
    · exact trip_quiet s x _
    · exact setTrain_quiet s x _
  | stop x =>
    show Quiet s (s.stopRanOut x)
    unfold State.stopRanOut; split
    · exact trip_quiet s x _
    · exact setTrain_quiet s x _
  | cooldown x => exact ((setTrain_quiet s x _).trans (raise_quiet _ .pp .releaseReady)).trans (tryRelease_quiet _ x)
  | prune x => exact setTrain_quiet s x _
  | permitHold => exact (withTrc_quiet s { s.trc with permitHold := none }).trans (tripActive_quiet _ .link)
  | dwell => exact withDu_quiet s _
  | linkLoss => exact loseLink_quiet s
  | activationHold => exact withRsv_quiet s _ (.inr rfl)
  | background => exact takeBackground_quiet s

/-! ### Modes -/

theorem leaveService_quiet (s : State) : Quiet s s.leaveService := by
  unfold State.leaveService; dsimp only
  generalize { s.du.zeroed with derateReported := false } = d
  exact ((withDu_quiet s d).trans (withRsv_quiet _ _ (.inr rfl))).trans (withProf_quiet _)

/-- Entry to SERVICE after the change of the mode (R168). -/
theorem enterService_quiet (s : State) : Quiet (s.setMode .service) s.enterService := by
  unfold State.enterService; dsimp only
  generalize s.setMode .service = u
  have taken : Quiet u u.takeSensitivities := withTrc_quiet u _
  have released := taken.trans (foldl_quiet tryRelease_quiet Train.all _)
  generalize Train.all.foldl State.tryRelease u.takeSensitivities = v at released
  exact (released.trans (requestReview_quiet v)).trans (withProf_quiet _)

/-- Entry to FAULTED after the change of the mode (R171). -/
theorem enterFaulted_quiet (s : State) : Quiet (s.setMode .faulted) s.enterFaulted :=
  (tripActive_quiet _ _).trans (leaveService_quiet _)

theorem clampSetpoints_quiet (s : State) : Quiet s s.clampSetpoints := withDu_quiet s _

theorem firstLinkLoad_quiet (s : State) (wasLoaded : Bool) : Quiet s (s.firstLinkLoad wasLoaded) := by
  unfold State.firstLinkLoad; split
  · exact withRsv_quiet s _ (.inl rfl)
  · exact .refl s

/-! ### The interval boundary -/

theorem withTb_keepsCheck (s : State) (b : TimeBase) : KeepsCheck s (s.withTb b) where
  running := .inl rfl
  waiting := rfl
  checkMode := rfl
  applied := rfl
  ports _ := ⟨_, rfl⟩
  settings := rfl
  mode := rfl
  resetHeld := rfl

theorem withSlog_keepsCheck (s : State) (l : SettlementLog) : KeepsCheck s (s.withSlog l) where
  running := .inl rfl
  waiting := rfl
  checkMode := rfl
  applied := rfl
  ports _ := ⟨_, rfl⟩
  settings := rfl
  mode := rfl
  resetHeld := rfl

theorem withBook_keepsCheck (s : State) (b : Book) : KeepsCheck s (s.withBook b) where
  running := .inl rfl
  waiting := rfl
  checkMode := rfl
  applied := rfl
  ports _ := ⟨_, rfl⟩
  settings := rfl
  mode := rfl
  resetHeld := rfl

theorem withRsv_keepsCheck (s : State) (r : Reserve) : KeepsCheck s (s.withRsv r) where
  running := .inl rfl
  waiting := rfl
  checkMode := rfl
  applied := rfl
  ports _ := ⟨_, rfl⟩
  settings := rfl
  mode := rfl
  resetHeld := rfl

theorem expireBlocks_keepsCheck (s : State) (ended : Nat) : KeepsCheck s (s.expireBlocks ended) := by
  unfold State.expireBlocks; dsimp only; split
  · exact withBook_keepsCheck s _
  · exact (Quiet.refl s).toKeepsCheck

theorem setMarks_keepsCheck (s : State) (blocks : List Block) (inserted : Bool) (f : Option Failure) :
    KeepsCheck s (s.setMarks blocks inserted f) := by
  unfold State.setMarks; dsimp only; split
  · exact ((withBook_keepsCheck s _).trans (raise_quiet _ .pp .atRisk).toKeepsCheck).trans (raise_quiet _ .tp .atRisk).toKeepsCheck
  · exact withBook_keepsCheck s _

theorem reclamp_keepsCheck (s : State) (old : Band) : KeepsCheck s (s.reclamp old) := by
  unfold State.reclamp; dsimp only; split
  · exact withRsv_keepsCheck s _
  · exact (withRsv_keepsCheck s _).trans (raise_quiet _ .gp .band).toKeepsCheck

theorem closeRecord_keepsCheck (s : State) : KeepsCheck s s.closeRecord := by
  unfold State.closeRecord; split
  · exact (Quiet.refl s).toKeepsCheck
  · exact (withSlog_keepsCheck s _).trans (raise_quiet _ .tp .record).toKeepsCheck

theorem openRecord_keepsCheck (s : State) (isPartial : Bool) : KeepsCheck s (s.openRecord isPartial) := by
  unfold State.openRecord; split
  · exact (Quiet.refl s).toKeepsCheck
  · exact withSlog_keepsCheck s _

theorem boundary_keepsCheck (s : State) (millis : Nat) : KeepsCheck s (s.boundary millis) := by
  unfold State.boundary; split
  · exact (Quiet.refl s).toKeepsCheck
  · exact (((((withTb_keepsCheck s _).trans (expireBlocks_keepsCheck _ _)).trans (reclamp_keepsCheck _ _)).trans
      (closeRecord_keepsCheck _)).trans (openRecord_keepsCheck _ _)).trans (requestReview_quiet _).toKeepsCheck

theorem takeTrim_keepsCheck (s : State) (correction : Int) : KeepsCheck s (s.takeTrim correction) := by
  unfold State.takeTrim; split
  · exact (Quiet.refl s).toKeepsCheck
  · dsimp only; split
    · exact boundary_keepsCheck s _
    · exact withTb_keepsCheck s _

theorem applyLength_keepsCheck (s : State) (oldLength : Option Nat) : KeepsCheck s (s.applyLength oldLength) := by
  unfold State.applyLength; split
  · exact (Quiet.refl s).toKeepsCheck
  · split
    · exact boundary_keepsCheck s _
    · exact (Quiet.refl s).toKeepsCheck

end Sys2Proof.Proofs
end

section
/-! The interval boundary, said once: what each of its parts does, and that together they are `State.TakesBoundary` (R39, R45, R60, R139,
R149, R151). -/

namespace Sys2Proof.Proofs
open Sys2Proof Sys2Proof.Machine

/-! ### The current block and the band -/

theorem currentBlock_of_clock {s : State} {c : Clock} (h : s.tb.clock = some c) :
    s.currentBlock = s.book.blocks.find? fun b => b.terms.covers c.interval := by
  unfold State.currentBlock; rw [h]

theorem currentBlock_of_unset {s : State} (h : s.tb.clock = none) : s.currentBlock = none := by
  unfold State.currentBlock; rw [h]

theorem currentBlock_of_frame {s t : State} {l : List Part} (f : s.onlyChanges t l) (tb : Part.tb ∉ l := by decide)
    (book : Part.book ∉ l := by decide) : t.currentBlock = s.currentBlock := by
  unfold State.currentBlock; rw [frame_tb f tb, frame_book f book]

theorem band_of_frame {s t : State} {l : List Part} (f : s.onlyChanges t l) (tb : Part.tb ∉ l := by decide)
    (book : Part.book ∉ l := by decide) : t.band = s.band := by
  unfold State.band; rw [currentBlock_of_frame f tb book]

/-! ### The parts of a boundary -/

theorem boundary_of_clock {s : State} {c : Clock} (h : s.tb.clock = some c) (m : Nat) :
    s.boundary m =
      ((((((s.withTb { s.tb with clock := c.next m }).expireBlocks c.interval).reclamp s.band).closeRecord).openRecord
        false).requestReview) := by
  unfold State.boundary; rw [h]

theorem expireBlocks_book (s : State) (ended : Nat) :
    (s.expireBlocks ended).book =
      { blocks := s.book.blocks.filter fun b => decide (b.terms.last ≠ ended)
        revision :=
          if (s.book.blocks.filter fun b => decide (b.terms.last ≠ ended)).length < s.book.blocks.length then s.book.revision + 1
          else s.book.revision } := by
  unfold State.expireBlocks; dsimp only; split
  · rfl
  · next whole =>
    have all : s.book.blocks.filter (fun b => decide (b.terms.last ≠ ended)) = s.book.blocks :=
      List.filter_sublist.eq_of_length_le (Nat.not_lt.mp whole)
    rw [all]

theorem reclamp_rsv (s : State) (old : Band) : (s.reclamp old).rsv = { s.rsv with granted := s.band.clamp s.rsv.granted } := by
  unfold State.reclamp; dsimp only; split <;> rfl

theorem reclamp_port (s : State) (old : Band) :
    (s.reclamp old).port .gp =
      { s.port .gp with
        causes := if s.band = old then (s.port .gp).causes else (s.port .gp).causes ||| Cause.mask .gp .band } := by
  unfold State.reclamp; dsimp only; split
  · rfl
  · rw [port_raise]; rfl

theorem closeRecord_of_none {s : State} (h : s.slog.current = none) : s.closeRecord = s := by
  unfold State.closeRecord; rw [h]

theorem closeRecord_of_some {s : State} {r : OpenRecord} (h : s.slog.current = some r) :
    s.closeRecord = (s.withSlog { current := none, ring := appendRecord s.slog.ring (s.closed r) }).raise .tp .record := by
  unfold State.closeRecord; rw [h]

theorem closeRecord_slog (s : State) :
    s.closeRecord.slog =
      { current := none
        ring := match s.slog.current with
          | none => s.slog.ring
          | some r => appendRecord s.slog.ring (s.closed r) } := by
  cases h : s.slog.current with
  | none =>
    rw [closeRecord_of_none h]
    show s.slog = { current := none, ring := s.slog.ring }
    rw [← h]
  | some r => rw [closeRecord_of_some h]; rfl

theorem closeRecord_causes (s : State) :
    (s.closeRecord.port .tp).causes =
      if s.slog.current = none then (s.port .tp).causes else (s.port .tp).causes ||| Cause.mask .tp .record := by
  cases h : s.slog.current with
  | none => rw [closeRecord_of_none h]; rfl
  | some r => rw [closeRecord_of_some h, port_raise]; rfl

theorem recordedMass_eq (s : State) : s.recordedMass = if s.inv.status = .unanchored then none else some s.inv.mass := by
  unfold State.recordedMass; cases s.inv.status <;> rfl

/-- The record that is opened for the current interval of a clock (R149). -/
def openedRecord (s : State) (c : Clock) (isPartial : Bool) : OpenRecord :=
  { interval := c.interval, reference := s.currentBlock.map fun b => b.terms.reference
    startMass := if s.inv.status = .unanchored then none else some s.inv.mass, startEpoch := s.inv.epoch
    scheduled := 0, delivered := 0, reserveUp := 0, reserveDown := 0, ticks := 0
    flags :=
      { atRisk := (s.currentBlock.map Block.atRisk).getD false
        derated := false, minLoad := false, stale := decide (s.inv.metering = .stale)
        gridLost := s.rsv.holdTimer.isSome, clamped := false, discontinuity := false, isPartial := isPartial } }

theorem openRecord_of_unset {s : State} (h : s.tb.clock = none) (isPartial : Bool) : s.openRecord isPartial = s := by
  unfold State.openRecord; rw [h]

theorem openRecord_of_clock {s : State} {c : Clock} (h : s.tb.clock = some c) (isPartial : Bool) :
    s.openRecord isPartial = s.withSlog { s.slog with current := some (openedRecord s c isPartial) } := by
  unfold State.openRecord openedRecord; rw [h, ← recordedMass_eq]

theorem openRecord_ring (s : State) (isPartial : Bool) : (s.openRecord isPartial).slog.ring = s.slog.ring := by
  unfold State.openRecord; split <;> rfl

theorem closed_eq (s : State) (r : OpenRecord) :
    s.closed r =
      { opened := r, endMass := if s.inv.status = .unanchored then none else some s.inv.mass, endEpoch := s.inv.epoch
        scheduledKwh := r.scheduled.tdiv 3600, deliveredKwh := r.delivered.tdiv 3600
        reserveUpKwh := r.reserveUp.tdiv 3600, reserveDownKwh := r.reserveDown.tdiv 3600 } := by
  unfold State.closed; rw [recordedMass_eq]; rfl

theorem clock_next (c : Clock) (m : Nat) :
    c.next m = if c.interval < 4000000000 then some { interval := c.interval + 1, millis := m } else none := rfl

/-- A boundary of a SET clock does what R39 and its companions say (log entry 19). -/
theorem boundary_takesBoundary {s : State} {c : Clock} (set : s.tb.clock = some c) (m : Nat) :
    s.TakesBoundary (s.boundary m) c m := by
  have whole := boundary_frame s m
  rw [boundary_of_clock set m] at whole ⊢
  generalize hu : s.withTb { s.tb with clock := c.next m } = u at whole ⊢
  have fu : s.onlyChanges u [.tb] := hu ▸ withTb_frame s _
  have fv := expireBlocks_frame u c.interval
  have book := expireBlocks_book u c.interval
  generalize u.expireBlocks c.interval = v at whole fv book ⊢
  have fw := reclamp_frame v s.band
  have rsv := reclamp_rsv v s.band
  have gp := reclamp_port v s.band
  generalize v.reclamp s.band = w at whole fw rsv gp ⊢
  have fx := closeRecord_frame w
  have closed := closeRecord_slog w
  have causes := closeRecord_causes w
  generalize w.closeRecord = x at whole fx closed causes ⊢
  have fy := openRecord_frame x false
  have ring := openRecord_ring x false
  generalize hy : x.openRecord false = y at whole fy ring ⊢
  have ft := requestReview_frame y
  have next : u.tb.clock = c.next m := by rw [← hu]; rfl
  have ux : u.onlyChanges x [.book, .rsv, .gp, .slog, .tp] :=
    onlyChanges_trans (onlyChanges_mono fv (by decide)) (onlyChanges_trans (onlyChanges_mono fw (by decide))
      (onlyChanges_mono fx (by decide)))
  have vt : v.onlyChanges y.requestReview [.rsv, .gp, .slog, .tp, .prj] :=
    onlyChanges_trans (onlyChanges_mono fw (by decide)) (onlyChanges_trans (onlyChanges_mono fx (by decide))
      (onlyChanges_trans (onlyChanges_mono fy (by decide)) (onlyChanges_mono ft (by decide))))
  have clock : x.tb.clock = c.next m := by rw [frame_tb ux, next]
  have inv : x.inv = s.inv := by rw [frame_inv ux, frame_inv fu]
  have slog : w.slog = s.slog := by rw [frame_slog fw, frame_slog fv, frame_slog fu]
  refine
    { clock := by rw [frame_tb vt, frame_tb fv, next, clock_next]
      book := by rw [frame_book vt, book, frame_book fu]
      grant := ?_
      band := ?_
      ring := ?_
      opened := ?_
      record := ?_
      review := ?_
      frame := whole }
  · rw [frame_rsv ft, frame_rsv fy, frame_rsv fx, rsv, band_of_frame vt, frame_rsv fv, frame_rsv fu]; rfl
  · have kept : v.port .gp = s.port .gp := by
      rw [port_of_frame fv .gp (by decide), port_of_frame fu .gp (by decide)]
    rw [port_of_frame ft .gp (by decide), port_of_frame fy .gp (by decide), port_of_frame fx .gp (by decide), gp,
      band_of_frame vt, kept]
  · have winv : w.inv = s.inv := by rw [frame_inv fw, frame_inv fv, frame_inv fu]
    rw [frame_slog ft, ring, closed, slog]
    cases s.slog.current with
    | none => rfl
    | some r => dsimp only; rw [closed_eq, winv]; rfl
  · have hold : x.rsv.holdTimer = s.rsv.holdTimer := by rw [frame_rsv fx, rsv, frame_rsv fv, frame_rsv fu]
    rw [frame_slog ft, currentBlock_of_frame ft, currentBlock_of_frame fy, ← hy]
    rw [clock_next] at clock
    split at clock
    · next lt => rw [openRecord_of_clock clock, openedRecord, inv, hold, if_pos lt]; rfl
    · next last => rw [openRecord_of_unset clock, closed, if_neg last]
  · have kept : w.port .tp = s.port .tp := by
      rw [port_of_frame fw .tp (by decide), port_of_frame fv .tp (by decide), port_of_frame fu .tp (by decide)]
    rw [port_of_frame ft .tp (by decide), port_of_frame fy .tp (by decide), causes, slog, kept]
  · exact reviewRequested_of (by rw [frame_prj fy, frame_prj ux, frame_prj fu]) rfl (frame_inv ft) (frame_trc ft) (frame_book ft)
      (frame_settings ft) (frame_tb ft)

end Sys2Proof.Proofs
end

section
/-! O57: the book, the settlement ring and the grant stay in order. Beside the boundary and CLOCK SET, the book changes by WITHDRAW and by
an admission, which may not touch the current block, since it lies before the gate (R51, R53, R57). -/

namespace Sys2Proof.Proofs
open Sys2Proof Sys2Proof.Machine

/-! ### What leaves the schedule in order -/

theorem bookSafe_of_keepsCheck {s t : State} (k : KeepsCheck s t) (sub : t.book.blocks.Sublist s.book.blocks) (h : s.BookSafe) :
    t.BookSafe where
  ordered := h.ordered.sublist sub
  lengths b hb := h.lengths b (sub.subset hb)
  size := sub.length_le.trans h.size
  oneCheck waits := by
    obtain ⟨snap, running⟩ := h.oneCheck (k.waiting ▸ waits)
    rcases k.running with same | ⟨idle, -⟩
    · exact ⟨snap, same.trans running⟩
    · rw [idle] at running; cases running
  candidate c hc := by
    obtain ⟨length, size, fits⟩ := h.candidate c (k.inFlight ▸ hc)
    exact ⟨length, sub.length_le.trans_lt size, fun b hb => fits b (sub.subset hb)⟩

/-- The band is that of the terms of the current block (R135). -/
theorem band_congr {s t : State} (h : t.currentBlock.map Block.terms = s.currentBlock.map Block.terms) : t.band = s.band := by
  unfold State.band
  cases hs : s.currentBlock <;> cases ht : t.currentBlock <;> rw [hs, ht] at h <;> simp_all [Band.ofBlock]

theorem currentBlock_congr {s t : State} (clock : t.tb.clock.map Clock.interval = s.tb.clock.map Clock.interval)
    (blocks : t.book.blocks = s.book.blocks) : t.currentBlock = s.currentBlock := by
  unfold State.currentBlock
  rw [blocks]
  cases hs : s.tb.clock <;> cases ht : t.tb.clock <;> rw [hs, ht] at clock
  case none.some => cases clock
  case some.none => cases clock
  case some.some a b => dsimp only; rw [Option.some.inj clock]

theorem band_bounds (b : Band) (g : Int) : -(b.down : Int) ≤ b.clamp g ∧ b.clamp g ≤ b.up := by
  unfold Band.clamp hold; omega

theorem grantSafe_of_band {s t : State} (settings : t.settings = s.settings)
    (clock : t.tb.clock.isSome = true → s.tb.clock.isSome = true) (band : t.band = s.band)
    (granted : t.rsv.granted = s.rsv.granted ∨ t.rsv.granted = 0)
    (mode : t.prof.mode ≠ .service → s.prof.mode ≠ .service ∨ t.rsv.granted = 0) (h : s.GrantSafe) : t.GrantSafe where
  settings := settingsSafe_congr settings h.settings
  loaded set := by rw [settings]; exact h.loaded (clock set)
  low := by have := h.low; rw [band]; omega
  high := by have := h.high; rw [band]; omega
  outside away := by
    rcases mode away with was | zero
    · have := h.outside was; omega
    · exact zero

theorem ringSafe_congr {s t : State} (ring : t.slog.ring = s.slog.ring)
    (current : t.slog.current.map OpenRecord.interval = s.slog.current.map OpenRecord.interval)
    (clock : t.tb.clock.map Clock.interval = s.tb.clock.map Clock.interval) (h : s.RingSafe) : t.RingSafe where
  size := by rw [ring]; exact h.size
  increasing := by rw [ring]; exact h.increasing
  openInterval := by rw [current, clock]; exact h.openInterval
  earlier c hc r hr := by
    rw [hc] at clock
    obtain ⟨c', hc', same⟩ := Option.map_eq_some_iff.mp clock.symm
    rw [ring] at hr
    exact same ▸ h.earlier c' hc' r hr

theorem band_of_same {s t : State} (clock : t.tb.clock.map Clock.interval = s.tb.clock.map Clock.interval)
    (book : t.book = s.book) : t.band = s.band :=
  band_congr (congrArg _ (currentBlock_congr clock (congrArg _ book)))

theorem Quiet.scheduleSafe {s t : State} (q : Quiet s t) (h : s.ScheduleSafe) : t.ScheduleSafe where
  book := bookSafe_of_keepsCheck q.toKeepsCheck (by rw [q.book]) h.book
  ring := ringSafe_congr q.ring q.current (by rw [q.clock]) h.ring
  grant := grantSafe_of_band q.settings (by rw [q.clock]; exact id)
    (band_of_same (congrArg _ q.clock) q.book) q.granted
    (by rw [q.mode]; exact .inl) h.grant

/-! ### The boundary -/

theorem appendRecord_length (ring : List ClosedRecord) (r : ClosedRecord) (h : ring.length ≤ 96) :
    (appendRecord ring r).length ≤ 96 := by
  unfold appendRecord ringLength
  split <;> simp <;> omega

theorem appendRecord_sublist (ring : List ClosedRecord) (r : ClosedRecord) : (appendRecord ring r).Sublist (ring ++ [r]) := by
  unfold appendRecord
  refine List.Sublist.append ?_ (List.Sublist.refl _)
  split
  · exact List.drop_sublist _ _
  · exact List.Sublist.refl _

theorem boundary_ringSafe {s : State} (m : Nat) (h : s.RingSafe) : (s.boundary m).RingSafe := by
  cases set : s.tb.clock with
  | none => unfold State.boundary; rw [set]; exact h
  | some c =>
    have b := boundary_takesBoundary set m
    generalize s.boundary m = t at b
    have open_ := h.openInterval
    rw [set] at open_
    obtain ⟨r, current, interval⟩ := Option.map_eq_some_iff.mp open_
    have ring := b.ring
    rw [current] at ring
    have ring : t.slog.ring = appendRecord s.slog.ring (s.closed r) := by rw [ring, closed_eq]; rfl
    have sub := appendRecord_sublist s.slog.ring (s.closed r)
    have last : (s.closed r).opened.interval = c.interval := interval
    refine ⟨?_, ?_, ?_, ?_⟩
    · rw [ring]; exact appendRecord_length _ _ h.size
    · rw [ring]
      refine List.Pairwise.sublist sub (List.pairwise_append.mpr ⟨h.increasing, List.pairwise_singleton _ _, fun x hx y hy => ?_⟩)
      rw [List.mem_singleton.mp hy, last]
      exact h.earlier c set x hx
    · rw [b.opened, b.clock]; split <;> rfl
    · intro c' hc' x hx
      rw [b.clock] at hc'
      split at hc'
      · obtain rfl := Option.some.inj hc'
        rw [ring] at hx
        rcases List.mem_append.mp (sub.subset hx) with old | new
        · exact Nat.lt_succ_of_lt (h.earlier c set x old)
        · rw [List.mem_singleton.mp new, last]; exact Nat.lt_succ_self _
      · cases hc'

theorem boundary_scheduleSafe {s : State} (m : Nat) (h : s.ScheduleSafe) : (s.boundary m).ScheduleSafe := by
  have ringSafe := boundary_ringSafe m h.ring
  have check := boundary_keepsCheck s m
  cases set : s.tb.clock with
  | none => unfold State.boundary; rw [set]; exact h
  | some c =>
    have b := boundary_takesBoundary set m
    generalize s.boundary m = t at b ringSafe check
    have bounds := band_bounds t.band s.rsv.granted
    have granted : t.rsv.granted = t.band.clamp s.rsv.granted := by rw [b.grant]; rfl
    refine
      { book := bookSafe_of_keepsCheck check (by rw [b.book]; exact List.filter_sublist) h.book
        ring := ringSafe
        grant :=
          { settings := settingsSafe_congr check.settings h.grant.settings
            loaded := fun _ => by rw [check.settings]; exact h.grant.loaded (by rw [set]; rfl)
            low := granted ▸ bounds.1
            high := granted ▸ bounds.2
            outside := fun away => ?_ } }
    have zero := h.grant.outside (check.mode ▸ away)
    rw [granted, zero]
    unfold Band.clamp hold; omega

theorem scheduleSafe_congr {s t : State} (settings : t.settings = s.settings)
    (clock : t.tb.clock.map Clock.interval = s.tb.clock.map Clock.interval) (book : t.book = s.book)
    (running : t.prj.running = s.prj.running) (waiting : t.prj.waiting = s.prj.waiting)
    (ring : t.slog = s.slog) (granted : t.rsv.granted = s.rsv.granted) (mode : t.prof.mode = s.prof.mode)
    (h : s.ScheduleSafe) : t.ScheduleSafe where
  book :=
    { ordered := by rw [book]; exact h.book.ordered
      lengths := by rw [book]; exact h.book.lengths
      size := by rw [book]; exact h.book.size
      oneCheck := by rw [running, waiting]; exact h.book.oneCheck
      candidate := by
        have flight : t.inFlight = s.inFlight := by unfold State.inFlight; rw [running, waiting]
        rw [flight, book]; exact h.book.candidate }
  ring := ringSafe_congr (by rw [ring]) (by rw [ring]) clock h.ring
  grant := grantSafe_of_band settings
    (fun set => by
      have := congrArg Option.isSome clock
      rw [Option.isSome_map, Option.isSome_map] at this
      exact this ▸ set)
    (band_of_same clock book) (.inl granted) (by rw [mode]; exact .inl) h.grant

theorem scheduleSafe_keptByTime : KeptByTime State.ScheduleSafe where
  time {s b} same h := scheduleSafe_congr (s := s) (t := s.withTb b) rfl same rfl rfl rfl rfl rfl rfl h
  tick h := (tickParts_quiet _).scheduleSafe h
  fire e h := (fire_quiet _ e).scheduleSafe h
  boundary m h := boundary_scheduleSafe m h

theorem scheduleSafe_keptByFrames : KeptByFrames State.ScheduleSafe where
  port {s} p x h := scheduleSafe_congr (s := s) (t := s.setPort p x) rfl rfl rfl rfl rfl rfl rfl rfl h
  link {s} h := scheduleSafe_congr (s := s) (t := s.withRsv s.linkAfterFrame) rfl rfl rfl rfl rfl rfl rfl rfl h

/-! ### Modes and checks -/

/-- A change of the mode, and what follows it quietly: a grant outside SERVICE is 0 (R133). -/
theorem scheduleSafe_after_setMode {s t : State} {m : Mode} (q : Quiet (s.setMode m) t)
    (zero : s.prof.mode ≠ .service ∨ t.rsv.granted = 0) (h : s.ScheduleSafe) : t.ScheduleSafe where
  book := bookSafe_of_keepsCheck q.toKeepsCheck (by rw [q.book])
    ⟨h.book.ordered, h.book.lengths, h.book.size, h.book.oneCheck, h.book.candidate⟩
  ring := ringSafe_congr (s := s) q.ring q.current (congrArg _ q.clock) h.ring
  grant := grantSafe_of_band (s := s) q.settings (by rw [q.clock]; exact id) (band_of_same (congrArg _ q.clock) q.book) q.granted
    (fun _ => zero) h.grant

theorem handValues_scheduleSafe {s : State} {image : Image} (passed : failingField image = none) (h : s.ScheduleSafe) :
    (s.handValues image).ScheduleSafe := by
  have settled : (s.withSettings (some (.ofImage image))).ScheduleSafe :=
    { book := ⟨h.book.ordered, h.book.lengths, h.book.size, h.book.oneCheck, h.book.candidate⟩
      ring := ⟨h.ring.size, h.ring.increasing, h.ring.openInterval, h.ring.earlier⟩
      grant := ⟨settingsSafe_ofImage passed s, fun _ => rfl, h.grant.low, h.grant.high, h.grant.outside⟩ }
  unfold State.handValues; dsimp only
  generalize s.withSettings (some (.ofImage image)) = u at settled
  have loaded := (loadInventory_quiet u u.cfg).scheduleSafe settled
  generalize u.loadInventory u.cfg = v at loaded
  have bounded : (v.applyLength (s.settings.map Settings.intervalLength)).ScheduleSafe := by
    unfold State.applyLength; split
    · exact loaded
    · split
      · exact boundary_scheduleSafe 0 loaded
      · exact loaded
  generalize v.applyLength _ = w at bounded
  have applied : (w.applyDefaultMode image.defaultCheckMode).ScheduleSafe := by
    unfold State.applyDefaultMode; split
    · exact bounded
    · exact scheduleSafe_congr (s := w) rfl rfl rfl rfl rfl rfl rfl rfl bounded
  exact (((foldl_quiet applyInstalled_quiet Train.all _).trans (clampSetpoints_quiet _)).trans
    (firstLinkLoad_quiet _ _)).scheduleSafe applied

theorem setMode_scheduleSafe {s : State} (m : Mode) (away : s.prof.mode ≠ .service) (h : s.ScheduleSafe) :
    (s.setMode m).ScheduleSafe := scheduleSafe_after_setMode (.refl _) (.inl away) h

theorem checkPassed_scheduleSafe {s : State} (purpose : Purpose) {image : Image} (passed : failingField image = none)
    (h : s.ScheduleSafe) : (s.checkPassed purpose image).ScheduleSafe := by
  unfold State.checkPassed; dsimp only
  refine scheduleSafe_keptByFrames.raise .pp _ ?_
  have handed := handValues_scheduleSafe passed ((withProf_quiet s (f := { s.prof with
    bad := false, lastCheck := .pass, failingField := 0, activity := .idle, siteCode := image.field 1 })).scheduleSafe h)
  generalize State.handValues _ image = u at handed
  unfold State.modeAfterPass; split
  · next checking => exact setMode_scheduleSafe _ (by rw [checking]; decide) handed
  · next maintenance => exact scheduleSafe_after_setMode (enterService_quiet u) (.inl (by rw [maintenance]; decide)) handed
  · exact handed

theorem checkFailed_scheduleSafe {s : State} (purpose : Purpose) (field : Nat) (h : s.ScheduleSafe) :
    (s.checkFailed purpose field).ScheduleSafe := by
  unfold State.checkFailed; dsimp only
  refine scheduleSafe_keptByFrames.raise .pp _ ?_
  have noted := (withProf_quiet s (f := { s.prof with
    bad := true, lastCheck := .fail, failingField := field, activity := .idle })).scheduleSafe h
  generalize s.withProf _ = u at noted
  unfold State.modeAfterFail; split
  · next checking => exact setMode_scheduleSafe _ (by rw [checking]; decide) noted
  · exact scheduleSafe_after_setMode (enterFaulted_quiet u) (.inr rfl) noted
  · exact noted

/-! ### The clock requests -/

/-- The state in which CLOCK SET opens its record: the clock is SET and the ring trimmed (R42, R154). -/
def clockSet (s : State) (interval millis : Nat) : State :=
  (s.withTb { s.tb with clock := some { interval := interval, millis := millis } }).withSlog
    { s.slog with ring := trimRing s.slog.ring interval }

theorem takeClockSet_eq (s : State) (interval millis : Nat) :
    s.takeClockSet interval millis = ((clockSet s interval millis).openRecord true).startPendingReview := rfl

theorem clockSet_keepsCheck (s : State) (interval millis : Nat) : KeepsCheck s (clockSet s interval millis) :=
  (withTb_keepsCheck s _).trans (withSlog_keepsCheck _ _)

theorem takeClockSet_scheduleSafe {s : State} {interval millis : Nat} (taken : s.clockSetRefusal interval millis = none)
    (h : s.ScheduleSafe) : (s.takeClockSet interval millis).ScheduleSafe := by
  unfold State.clockSetRefusal at taken
  split at taken
  · cases taken
  next c loaded =>
  split at taken
  · cases taken
  next unset =>
  have unset : s.tb.clock = none := by simpa using unset
  have grantZero : s.rsv.granted = 0 := by
    have band : s.band = ⟨0, 0⟩ := by unfold State.band; rw [currentBlock_of_unset unset]; rfl
    have low := h.grant.low
    have high := h.grant.high
    rw [band] at low high
    exact Int.le_antisymm high low
  rw [takeClockSet_eq]
  have sub : (trimRing s.slog.ring interval).Sublist s.slog.ring := List.filter_sublist
  refine (startPendingReview_quiet _).scheduleSafe ?_
  have check := (clockSet_keepsCheck s interval millis).trans (openRecord_keepsCheck _ true)
  rw [openRecord_of_clock (c := { interval := interval, millis := millis }) rfl] at check ⊢
  refine
    { book := bookSafe_of_keepsCheck check (List.Sublist.refl _) h.book
      ring :=
        { size := sub.length_le.trans h.ring.size
          increasing := h.ring.increasing.sublist sub
          openInterval := rfl
          earlier := fun c hc r hr => ?_ }
      grant :=
        { settings := settingsSafe_congr (s := s) rfl h.grant.settings
          loaded := fun _ => by rw [check.settings, loaded]; rfl
          low := ?_
          high := ?_
          outside := fun _ => grantZero } }
  · rw [← Option.some.inj hc]
    exact of_decide_eq_true (List.mem_filter.mp hr).2
  · show -((State.band _).down : Int) ≤ s.rsv.granted
    rw [grantZero]; omega
  · show s.rsv.granted ≤ ((State.band _).up : Int)
    rw [grantZero]; omega

theorem takeTrim_scheduleSafe {s : State} (correction : Int) (h : s.ScheduleSafe) : (s.takeTrim correction).ScheduleSafe := by
  unfold State.takeTrim; split
  · exact h
  · next c set =>
    dsimp only; split
    · exact boundary_scheduleSafe _ h
    · exact scheduleSafe_keptByTime.time (by simp [set]) h

/-! ### The book -/

theorem startCheck_of_clock {s : State} {k : Clock} (set : s.tb.clock = some k) (c : Terms) :
    s.startCheck c = s.withPrj { s.prj with running := some (.check c (s.snapshot k)), waiting := none } := by
  unfold State.startCheck; rw [set]

/-- With the clock UNSET the check ends at once (R68). -/
theorem startCheck_of_unset {s : State} (unset : s.tb.clock = none) (c : Terms) :
    s.startCheck c = (s.withPrj { s.prj with waiting := none }).reportEnd c
      (if s.prof.mode = .service then .gateClosed else .wrongMode) none := by
  unfold State.startCheck; rw [unset]

theorem startReview_of_clock {s : State} {k : Clock} (set : s.tb.clock = some k) :
    s.startReview = s.withPrj { s.prj with running := some (.review (s.snapshot k)), pendingReview := false } := by
  unfold State.startReview; rw [set]

/-- The engine passed on is idle, or reviews, or starts the check that waited (R71). -/
theorem passOn_engine (s : State) :
    (s.passOn.prj.running = none ∧ s.passOn.prj.waiting = none) ∨
    (∃ snap, s.passOn.prj.running = some (.review snap) ∧ s.passOn.prj.waiting = s.prj.waiting) ∨
    (∃ c snap, s.prj.waiting = some c ∧ s.passOn.prj.running = some (.check c snap) ∧ s.passOn.prj.waiting = none) := by
  unfold State.passOn; dsimp only
  generalize hu : s.withPrj { s.prj with running := none } = u
  have idle : u.prj.running = none := by rw [← hu]; rfl
  have waits : u.prj.waiting = s.prj.waiting := by rw [← hu]; rfl
  split
  · next review =>
    have can := (Bool.and_eq_true_iff.mp review).2
    unfold State.canReview at can
    simp only [Bool.and_eq_true, Option.isSome_iff_exists] at can
    obtain ⟨-, k, set⟩ := can
    rw [startReview_of_clock set]
    exact .inr (.inl ⟨_, rfl, waits⟩)
  · split
    · next c hc =>
      cases set : u.tb.clock with
      | none =>
        rw [startCheck_of_unset set, frame_prj (reportEnd_frame _ _ _ _)]
        exact .inl ⟨idle, rfl⟩
      | some k =>
        rw [startCheck_of_clock set]
        exact .inr (.inr ⟨c, _, waits ▸ hc, rfl, rfl⟩)
    · next none => exact .inl ⟨idle, none⟩

/-- A candidate fits the book: no overlap, no reference twice, and room for it (R48, R54). -/
def Fits (blocks : List Block) (c : Terms) : Prop :=
  1 ≤ c.length ∧ blocks.length < 64 ∧ ∀ b ∈ blocks, b.terms.overlaps c = false ∧ b.terms.reference ≠ c.reference

/-- The engine passed on: the candidate that waits still fits, and starts or is reported (R68, R71). -/
theorem passOn_bookSafe {s : State} (ordered : s.book.blocks.Pairwise Block.before) (lengths : ∀ b ∈ s.book.blocks, 1 ≤ b.terms.length)
    (size : s.book.blocks.length ≤ 64) (waiting : ∀ c, s.prj.waiting = some c → Fits s.book.blocks c) : s.passOn.BookSafe := by
  have book : s.passOn.book = s.book := frame_book (passOn_frame s)
  refine ⟨by rw [book]; exact ordered, by rw [book]; exact lengths, by rw [book]; exact size, ?_, ?_⟩
  · rcases passOn_engine s with ⟨-, none⟩ | ⟨snap, review, -⟩ | ⟨c, snap, -, -, none⟩
    · rw [none]; exact nofun
    · exact fun _ => ⟨snap, review⟩
    · rw [none]; exact nofun
  · rw [book]
    unfold State.inFlight
    rcases passOn_engine s with ⟨idle, none⟩ | ⟨snap, review, same⟩ | ⟨c, snap, was, check, -⟩
    · rw [idle, none]; exact nofun
    · rw [review, same]; exact waiting
    · rw [check]; intro c' hc'; exact waiting c' (Option.some.inj hc' ▸ was)

/-- A book that holds the same blocks but for their marks (R74). -/
theorem markBook_terms (f : Option Failure) (blocks : List Block) : (markBook f blocks).map Block.terms = blocks.map Block.terms := by
  unfold markBook; rw [List.map_map]; rfl

theorem setMarks_book (s : State) (blocks : List Block) (inserted : Bool) (f : Option Failure) :
    (s.setMarks blocks inserted f).book =
      { blocks := markBook f blocks
        revision := if inserted || decide (markBook f blocks ≠ blocks) then s.book.revision + 1 else s.book.revision } := by
  unfold State.setMarks; dsimp only; split <;> rfl

theorem markBook_forall {P : Terms → Prop} {f : Option Failure} {blocks : List Block} (h : ∀ b ∈ blocks, P b.terms) :
    ∀ b ∈ markBook f blocks, P b.terms := by
  intro b hb
  obtain ⟨a, ha, rfl⟩ := List.mem_map.mp hb
  exact h a ha

theorem markBook_ordered {f : Option Failure} {blocks : List Block} (h : blocks.Pairwise Block.before) :
    (markBook f blocks).Pairwise Block.before := List.pairwise_map.mpr (h.imp fun g => g)

theorem markBook_length (f : Option Failure) (blocks : List Block) : (markBook f blocks).length = blocks.length := List.length_map _

theorem mem_insertBlock {b x : Block} {l : List Block} : x ∈ insertBlock b l ↔ x = b ∨ x ∈ l := by
  induction l with
  | nil => simp [insertBlock]
  | cons y l ih =>
    unfold insertBlock; split
    · simp
    · simp only [List.mem_cons, ih]; tauto

theorem insertBlock_length (b : Block) (l : List Block) : (insertBlock b l).length = l.length + 1 := by
  induction l with
  | nil => rfl
  | cons y l ih =>
    unfold insertBlock; split
    · rfl
    · simp [ih]

/-- Two blocks that share no interval stand in the order of their first intervals. -/
theorem before_of_lt {a b : Block} (ha : 1 ≤ a.terms.length) (hb : 1 ≤ b.terms.length)
    (apart : a.terms.overlaps b.terms = false ∨ b.terms.overlaps a.terms = false) (references : a.terms.reference ≠ b.terms.reference)
    (lt : a.terms.first ≤ b.terms.first) : a.before b := by
  refine ⟨?_, references⟩
  unfold Terms.overlaps Terms.last at apart
  simp only [Bool.and_eq_false_iff, decide_eq_false_iff_not] at apart
  unfold Terms.last
  omega

/-- A candidate that fits is inserted in its place (R48, R51). -/
theorem insertBlock_ordered {b : Block} {l : List Block} (ordered : l.Pairwise Block.before) (lengths : ∀ x ∈ l, 1 ≤ x.terms.length)
    (fits : Fits l b.terms) : (insertBlock b l).Pairwise Block.before := by
  induction l with
  | nil => exact List.pairwise_singleton _ _
  | cons y l ih =>
    obtain ⟨length, size, apart⟩ := fits
    obtain ⟨first, rest⟩ := List.pairwise_cons.mp ordered
    have beforeB (x : Block) (hx : x ∈ y :: l) (le : x.terms.first ≤ b.terms.first) : x.before b :=
      before_of_lt (lengths x hx) length (.inl (apart x hx).1) (apart x hx).2 le
    have afterB (x : Block) (hx : x ∈ y :: l) (le : b.terms.first ≤ x.terms.first) : b.before x :=
      before_of_lt length (lengths x hx) (.inr (apart x hx).1) (apart x hx).2.symm le
    unfold insertBlock; split
    · next lt =>
      refine List.pairwise_cons.mpr ⟨fun x hx => afterB x hx ?_, ordered⟩
      rcases List.mem_cons.mp hx with rfl | hx'
      · exact lt.le
      · have later := (first x hx').1
        have := lengths y (by simp)
        unfold Terms.last at later
        omega
    · next ge =>
      refine List.pairwise_cons.mpr ⟨fun x hx => ?_, ih rest (fun x hx => lengths x (by simp [hx]))
        ⟨length, by simp at size; omega, fun x hx => apart x (by simp [hx])⟩⟩
      rcases mem_insertBlock.mp hx with rfl | hx'
      · exact beforeB y (by simp) (Nat.not_lt.mp ge)
      · exact first x hx'

/-- The blocks that cover an interval are found by their terms. -/
theorem find_covers_congr {j : Nat} {a b : List Block} (h : a.map Block.terms = b.map Block.terms) :
    (a.find? fun x => x.terms.covers j).map Block.terms = (b.find? fun x => x.terms.covers j).map Block.terms := by
  have found (l : List Block) : (l.find? fun x => x.terms.covers j).map Block.terms = (l.map Block.terms).find? fun t => t.covers j := by
    rw [List.find?_map]; rfl
  rw [found, found, h]

theorem find_insertBlock {j : Nat} {b : Block} (beyond : b.terms.covers j = false) (l : List Block) :
    (insertBlock b l).find? (fun x => x.terms.covers j) = l.find? fun x => x.terms.covers j := by
  induction l with
  | nil => simp [insertBlock, beyond]
  | cons y l ih =>
    unfold insertBlock; split
    · rw [List.find?_cons, beyond]
    · rw [List.find?_cons, List.find?_cons, ih]

theorem find_eraseP {j : Nat} {p : Block → Bool} {b : Block} {l : List Block} (found : l.find? p = some b)
    (beyond : b.terms.covers j = false) :
    (l.eraseP p).find? (fun x => x.terms.covers j) = l.find? fun x => x.terms.covers j := by
  induction l with
  | nil => cases found
  | cons y l ih =>
    rw [List.find?_cons] at found
    cases hy : p y with
    | true =>
      rw [hy] at found
      obtain rfl := Option.some.inj found
      rw [List.eraseP_cons_of_pos hy, List.find?_cons, beyond]
    | false =>
      rw [hy] at found
      rw [List.eraseP_cons_of_neg (by simp [hy]), List.find?_cons, List.find?_cons, ih found]

/-! ### Admission and withdrawal -/

/-- The gate lies beyond the current interval, since G is at least 1 (R53, R158). -/
theorem current_lt_gate {s : State} {c : Clock} (set : s.tb.clock = some c) (h : s.GrantSafe) : c.interval < s.gate := by
  obtain ⟨v, loaded⟩ := Option.isSome_iff_exists.mp (h.loaded (by rw [set]; rfl))
  obtain ⟨image, passed, rfl⟩ := h.settings v loaded
  have ok : inRange 1 8 (image.field 3) = true := fieldOk_of_failingField_eq_none passed (id := 3) (by decide) (by decide)
  have closure : s.cfg.gateClosure = image.field 3 := by rw [cfg_of_settings loaded]; rfl
  unfold State.gate State.currentInterval
  rw [closure, set]
  unfold inRange at ok
  simp only [Bool.and_eq_true, decide_eq_true_eq] at ok
  show c.interval < c.interval + image.field 3
  omega

/-- A block at or beyond the gate is not the current one. -/
theorem covers_of_gate_le {s : State} {c : Clock} (set : s.tb.clock = some c) (h : s.GrantSafe) {b : Terms} (beyond : ¬ b.first < s.gate) :
    b.covers c.interval = false := by
  have := current_lt_gate set h
  unfold Terms.covers
  rw [decide_eq_false (by omega)]; rfl

/-- Once the engine has passed on after a change of the book that keeps it in order and leaves the current block, all is in order. -/
theorem passOn_scheduleSafe {s u : State} (f : s.onlyChanges u [.book, .pp, .tp]) (ordered : u.book.blocks.Pairwise Block.before)
    (lengths : ∀ b ∈ u.book.blocks, 1 ≤ b.terms.length) (size : u.book.blocks.length ≤ 64)
    (waiting : ∀ c, s.prj.waiting = some c → Fits u.book.blocks c)
    (current : u.currentBlock.map Block.terms = s.currentBlock.map Block.terms) (h : s.ScheduleSafe) : u.passOn.ScheduleSafe := by
  have g : s.onlyChanges u.passOn [.book, .pp, .tp, .prj] :=
    onlyChanges_trans (onlyChanges_mono f (by decide)) (onlyChanges_mono (passOn_frame u) (by decide))
  have band : u.passOn.band = s.band := by rw [band_of_frame (passOn_frame u), band_congr current]
  exact
    { book := passOn_bookSafe ordered lengths size (by rw [frame_prj f]; exact waiting)
      ring := ringSafe_congr (by rw [frame_slog g]) (by rw [frame_slog g]) (by rw [frame_tb g]) h.ring
      grant := grantSafe_of_band (frame_settings g) (by rw [frame_tb g]; exact id) band (.inl (by rw [frame_rsv g]))
        (by rw [frame_prof g]; exact .inl) h.grant }

theorem waiting_none_of_check {s : State} {c : Terms} {snap : Snapshot} (running : s.prj.running = some (.check c snap))
    (h : s.BookSafe) : s.prj.waiting = none := by
  refine Option.not_isSome_iff_eq_none.mp fun waits => ?_
  obtain ⟨other, review⟩ := h.oneCheck waits
  rw [running] at review
  cases review

theorem passOn_check_scheduleSafe {s : State} {c : Terms} {snap : Snapshot} (running : s.prj.running = some (.check c snap))
    (h : s.ScheduleSafe) : s.passOn.ScheduleSafe :=
  passOn_scheduleSafe (onlyChanges_refl s _) h.book.ordered h.book.lengths h.book.size
    (by rw [waiting_none_of_check running h.book]; exact nofun) rfl h

theorem inFlight_of_check {s : State} {c : Terms} {snap : Snapshot} (running : s.prj.running = some (.check c snap)) :
    s.inFlight = some c := by unfold State.inFlight; rw [running]

theorem inFlight_of_review {s : State} {snap : Snapshot} (running : s.prj.running = some (.review snap)) :
    s.inFlight = s.prj.waiting := by unfold State.inFlight; rw [running]

/-- An ACCEPTED candidate lies at or beyond the gate (R72). -/
theorem accepted_beyond_gate {s : State} {c : Terms} {snap : Snapshot} {f : Option Failure}
    (accepted : s.checkOutcome c snap f = .accepted) : ¬ c.first < s.gate := by
  intro late
  unfold State.checkOutcome at accepted
  iterate 3
    split at accepted
    · cases accepted
  rw [if_pos (.inr late)] at accepted
  cases accepted

theorem completeCheck_scheduleSafe {s : State} {c : Terms} {snap : Snapshot} (running : s.prj.running = some (.check c snap))
    (h : s.ScheduleSafe) : (s.completeCheck c snap).ScheduleSafe := by
  unfold State.completeCheck; dsimp only
  refine scheduleSafe_keptByFrames.reportEnd _ _ _ ?_
  split
  case isFalse => exact passOn_check_scheduleSafe running h
  next accepted =>
  have fits : Fits s.book.blocks c := h.book.candidate c (inFlight_of_check running)
  have f := setMarks_frame s (insertBlock { terms := c, atRisk := false } s.book.blocks) true (snap.walk (some c))
  have book := setMarks_book s (insertBlock { terms := c, atRisk := false } s.book.blocks) true (snap.walk (some c))
  unfold State.acceptBlock
  generalize s.setMarks _ true _ = u at f book
  have blocks := congrArg Book.blocks book
  refine passOn_scheduleSafe f ?_ ?_ ?_ ?_ ?_ h
  · rw [blocks]; exact markBook_ordered (insertBlock_ordered h.book.ordered h.book.lengths fits)
  · rw [blocks]
    refine markBook_forall (P := fun b => 1 ≤ b.length) fun b hb => ?_
    rcases mem_insertBlock.mp hb with rfl | hb
    · exact fits.1
    · exact h.book.lengths b hb
  · rw [blocks, markBook_length, insertBlock_length]; exact fits.2.1
  · rw [waiting_none_of_check running h.book]; exact nofun
  · cases set : s.tb.clock with
    | none => rw [currentBlock_of_unset set, currentBlock_of_unset ((congrArg _ (frame_tb f)).trans set)]
    | some k =>
      rw [currentBlock_of_clock set, currentBlock_of_clock ((congrArg _ (frame_tb f)).trans set), blocks,
        find_covers_congr (markBook_terms _ _),
        find_insertBlock (b := { terms := c, atRisk := false }) (covers_of_gate_le set h.grant (accepted_beyond_gate accepted))]

theorem reviewCompletion_scheduleSafe {s : State} {snap : Snapshot} (running : s.prj.running = some (.review snap))
    (h : s.ScheduleSafe) : (s.setMarks s.book.blocks false (snap.walk none)).passOn.ScheduleSafe := by
  have f := setMarks_frame s s.book.blocks false (snap.walk none)
  have blocks := congrArg Book.blocks (setMarks_book s s.book.blocks false (snap.walk none))
  generalize s.setMarks _ false _ = u at f blocks
  refine passOn_scheduleSafe f ?_ ?_ ?_ ?_ ?_ h
  · rw [blocks]; exact markBook_ordered h.book.ordered
  · rw [blocks]; exact markBook_forall (P := fun b => 1 ≤ b.length) h.book.lengths
  · rw [blocks, markBook_length]; exact h.book.size
  · intro c waits
    obtain ⟨length, size, apart⟩ := h.book.candidate c ((inFlight_of_review running).trans waits)
    refine ⟨length, ?_, ?_⟩
    · rw [blocks, markBook_length]; exact size
    · rw [blocks]; exact markBook_forall (P := fun b => b.overlaps c = false ∧ b.reference ≠ c.reference) apart
  · cases set : s.tb.clock with
    | none => rw [currentBlock_of_unset set, currentBlock_of_unset ((congrArg _ (frame_tb f)).trans set)]
    | some k =>
      rw [currentBlock_of_clock set, currentBlock_of_clock ((congrArg _ (frame_tb f)).trans set), blocks,
        find_covers_congr (markBook_terms _ _)]

/-- A SUBMIT that passes every pre-check: SERVICE, the clock SET, no check in flight, a candidate that fits, at or beyond the gate
(R54). -/
theorem preCheck_ok {s : State} {b : BlockFields} {c : Terms} (passed : s.preCheck b = .ok c) :
    s.prof.mode = .service ∧ s.tb.clock ≠ none ∧ s.inFlight = none ∧ Fits s.book.blocks c := by
  unfold State.preCheck at passed
  iterate 4
    split at passed
    · cases passed
  next service set _ _ =>
  split at passed
  · cases passed
  next candidate named =>
  split at passed
  · cases passed
  next unrefused =>
  obtain rfl := Except.ok.inj passed
  unfold State.candidateRefusal at unrefused
  iterate 6
    split at unrefused
    · cases unrefused
  next _ apart references room free =>
  simp only [List.any_eq_true, not_exists, not_and, Bool.not_eq_true] at apart
  simp only [Bool.or_eq_true, List.any_eq_true, decide_eq_true_eq, not_or, not_exists, not_and] at references
  refine ⟨not_not.mp service, set, by simpa using free, ?_, Nat.not_le.mp room, fun x hx => ⟨apart x hx, references.1 x hx⟩⟩
  unfold Terms.ofFields at named
  split at named
  · cases named
  · dsimp only at named
    split at named
    · next good =>
      obtain rfl := Option.some.inj named
      have range := (Bool.and_eq_true_iff.mp good).1
      unfold fieldsInRange at range
      simp only [Bool.and_eq_true, decide_eq_true_eq] at range
      exact range.1.1.1.1.1.2
    · cases named

theorem handOver_scheduleSafe {s : State} {c : Terms} (set : s.tb.clock ≠ none) (free : s.inFlight = none)
    (fits : Fits s.book.blocks c) (h : s.ScheduleSafe) : (s.handOver c).ScheduleSafe := by
  obtain ⟨k, set⟩ := Option.ne_none_iff_exists'.mp set
  have withEngine (e : Engine) (one : e.waiting.isSome = true → ∃ snap, e.running = some (.review snap))
      (fit : ∀ c, (s.withPrj e).inFlight = some c → Fits s.book.blocks c) : (s.withPrj e).ScheduleSafe :=
    { book := ⟨h.book.ordered, h.book.lengths, h.book.size, one, fit⟩
      ring := ⟨h.ring.size, h.ring.increasing, h.ring.openInterval, h.ring.earlier⟩
      grant := ⟨settingsSafe_congr (s := s) rfl h.grant.settings, h.grant.loaded, h.grant.low, h.grant.high, h.grant.outside⟩ }
  unfold State.handOver; split
  · rw [startCheck_of_clock set]
    refine withEngine _ nofun fun c' hc' => ?_
    rw [inFlight_of_check (c := c) rfl] at hc'
    exact Option.some.inj hc' ▸ fits
  · next busy =>
    cases running : s.prj.running with
    | none => rw [running] at busy; exact absurd rfl busy
    | some job =>
      cases job with
      | check other snap => rw [inFlight_of_check running] at free; cases free
      | review snap =>
        refine withEngine _ (fun _ => ⟨snap, running⟩) fun c' hc' => ?_
        have waits := (inFlight_of_review (s := s.withPrj { s.prj with waiting := some c }) running).symm.trans hc'
        exact Option.some.inj waits ▸ fits

theorem dropCheck_scheduleSafe {s : State} (h : s.ScheduleSafe) : s.dropCheck.ScheduleSafe := by
  unfold State.dropCheck; split
  · next running => exact passOn_check_scheduleSafe running h
  · next idle =>
    refine
      { book := ⟨h.book.ordered, h.book.lengths, h.book.size, nofun, fun c hc => ?_⟩
        ring := ⟨h.ring.size, h.ring.increasing, h.ring.openInterval, h.ring.earlier⟩
        grant := ⟨settingsSafe_congr (s := s) rfl h.grant.settings, h.grant.loaded, h.grant.low, h.grant.high, h.grant.outside⟩ }
    unfold State.inFlight at hc
    split at hc
    · next running => exact absurd running (idle _ _)
    · cases hc

theorem removeBlock_scheduleSafe {s : State} {reference : Nat} {b : Block} (found : s.blockOf reference = some b)
    (beyond : ¬ b.terms.first < s.gate) (h : s.ScheduleSafe) : (s.removeBlock reference).ScheduleSafe := by
  refine (requestReview_quiet _).scheduleSafe ?_
  have sub : (s.book.blocks.eraseP fun b => decide (b.terms.reference = reference)).Sublist s.book.blocks := List.eraseP_sublist
  refine
    { book := bookSafe_of_keepsCheck (withBook_keepsCheck s _) sub h.book
      ring := ⟨h.ring.size, h.ring.increasing, h.ring.openInterval, h.ring.earlier⟩
      grant := grantSafe_of_band (s := s) rfl id (band_congr ?_) (.inl rfl) .inl h.grant }
  cases set : s.tb.clock with
  | none => rw [currentBlock_of_unset set, currentBlock_of_unset (by exact set)]
  | some k =>
    rw [currentBlock_of_clock set, currentBlock_of_clock (c := k) (by exact set)]
    exact congrArg _ (find_eraseP found (covers_of_gate_le set h.grant beyond))

/-! ### Every step -/

theorem afterReset_scheduleSafe (working stored : Image) (lines : PerTrain Bool) (draws : Nat) (pending : List Instr) :
    (State.afterReset working stored lines draws pending).ScheduleSafe where
  book := ⟨List.Pairwise.nil, nofun, Nat.zero_le _, nofun, nofun⟩
  ring := ⟨Nat.zero_le _, List.Pairwise.nil, rfl, nofun⟩
  grant := ⟨nofun, nofun, Int.le_refl 0, Int.le_refl 0, fun _ => rfl⟩

theorem takeLine_setPort (p : Port) (s : State) (e : LineEvent) : ∃ x, s.takeLine p e = s.setPort p x := by
  have discards (a : Assembler) : ∃ x, s.discard p a = s.setPort p x := by
    unfold State.discard State.setAssembler; rw [countError_eq, setPort_setPort]; exact ⟨_, rfl⟩
  have stays : ∃ x, s = s.setPort p x := ⟨_, (setPort_self s p).symm⟩
  unfold State.takeLine; split
  · unfold State.takeBreak; split
    · exact ⟨_, rfl⟩
    · exact discards _
  · exact stays
  · exact discards _
  · exact discards _
  · split
    · exact stays
    · exact discards _
  · split
    · exact ⟨_, rfl⟩
    · exact discards _
    · split
      · exact discards _
      · exact ⟨_, rfl⟩

/-- What a command of every port does, and a request that only reads, bears on its port and the grid link alone. -/
theorem KeptByFrames.exec {I : State → Prop} (h : KeptByFrames I) {c : Instr} (onePort : ∃ p, partsOf c = frameParts p) {s t : State}
    (hs : I s) (e : Machine.exec c s = .next t) : I t := by
  obtain ⟨p, parts⟩ := onePort
  cases c
  case frameDiscard p line =>
    cases e
    refine foldl_keeps (fun u event hu => ?_) line hs
    obtain ⟨x, moved⟩ := takeLine_setPort p u event
    rw [moved]; exact h.port p x hu
  case unknownKind =>
    cases e; split
    · exact h.takeFrame (fun _ => h.port _ _) hs
    · exact hs
  case badLength =>
    cases e; split
    · exact h.takeFrame (fun _ hu => h.respond _ _ _ _ (h.countError _ hu)) hs
    · exact hs
  case responseSent =>
    cases e; split
    · exact h.port _ _ hs
    · exact hs
  case status => cases e; exact h.takeFrame (fun _ => h.respond _ _ _ _) hs
  case causes => cases e; exact h.takeFrame (fun _ hu => h.port _ _ (h.respond _ _ _ _ hu)) hs
  case enables => cases e; exact h.takeFrame (fun _ hu => h.respond _ _ _ _ (h.port _ _ hu)) hs
  case clearLink => cases e; exact h.takeFrame (fun _ hu => h.port _ _ (h.respond _ _ _ _ hu)) hs
  case trainRead =>
    cases e
    refine h.takeFrame (fun u hu => ?_) hs
    split <;> exact h.respond _ _ _ _ hu
  case profileRead =>
    cases e
    refine h.takeFrame (fun u hu => ?_) hs
    split
    · exact h.respond _ _ _ _ hu
    · split
      · exact h.respond _ _ _ _ hu
      · split <;> exact h.respond _ _ _ _ hu
  case bookRead =>
    cases e
    refine h.takeFrame (fun u hu => ?_) hs
    split
    · exact h.respond _ _ _ _ hu
    · split <;> exact h.respond _ _ _ _ hu
  case position => cases e; exact h.takeFrame (fun _ => h.respond _ _ _ _) hs
  case recordRead =>
    cases e
    refine h.takeFrame (fun u hu => ?_) hs
    split
    · exact h.respond _ _ _ _ hu
    · split <;> exact h.respond _ _ _ _ hu
  all_goals cases p <;> cases parts

theorem exec_scheduleSafe (c : Instr) {s t : State} (h : s.ScheduleSafe) (e : exec c s = .next t) : t.ScheduleSafe := by
  have answered (u : State) (p : Port) (k : Byte) (r : Result) (l : List Byte) (hu : u.ScheduleSafe) :
      (u.respond p k r l).ScheduleSafe := scheduleSafe_keptByFrames.respond p k r l hu
  have request {p : Port} {act : State → State} (acts : ∀ u : State, u.ScheduleSafe → (act u).ScheduleSafe) :
      (s.takeFrame p act).ScheduleSafe := scheduleSafe_keptByFrames.takeFrame acts h
  cases c
  case powerOnReset => cases e; exact afterReset_scheduleSafe ..
  case pinReset =>
    cases e; split
    · exact afterReset_scheduleSafe ..
    · exact h
  case meter report =>
    cases e
    refine request fun u hu => ?_
    split
    · exact answered _ _ _ _ _ ((workMeter_quiet u report).scheduleSafe hu)
    · exact answered _ _ _ _ _ hu
  case anchor pressure heat =>
    cases e
    refine request fun u hu => ?_
    split
    · exact answered _ _ _ _ _ ((takeAnchor_quiet u _ heat).scheduleSafe hu)
    · exact answered _ _ _ _ _ hu
  case declareAvailable =>
    cases e; split
    case isFalse => exact h
    refine request fun u hu => ?_
    split
    · exact answered _ _ _ _ _ hu
    · split
      · exact answered _ _ _ _ _ hu
      · split
        · exact answered _ _ _ _ _ ((declare_quiet u _ _).scheduleSafe hu)
        · exact answered _ _ _ _ _ hu
  case declareOffline =>
    cases e
    refine request fun u hu => ?_
    split
    · exact answered _ _ _ _ _ hu
    · split
      · exact answered _ _ _ _ _ (((setTrain_quiet u _ _).trans (changeAvailability_quiet _)).scheduleSafe hu)
      · exact answered _ _ _ _ _ hu
  case release =>
    cases e
    refine request fun u hu => ?_
    split
    · exact answered _ _ _ _ _ hu
    · split
      · exact answered _ _ _ _ _ (((setTrain_quiet u _ _).trans (tryRelease_quiet _ _)).scheduleSafe hu)
      · exact answered _ _ _ _ _ hu
  case profileWrite =>
    cases e
    refine request fun u hu => ?_
    split
    · exact answered _ _ _ _ _ hu
    · exact answered _ _ _ _ _ ((withProf_quiet u).scheduleSafe hu)
  case profileStore =>
    cases e
    refine request fun u hu => ?_
    split
    · exact answered _ _ _ _ _ hu
    · exact answered _ _ _ _ _ ((withProf_quiet u).scheduleSafe hu)
  case profileLoad =>
    cases e
    refine request fun u hu => ?_
    split
    · exact answered _ _ _ _ _ hu
    · exact answered _ _ _ _ _ (((withProf_quiet u (f := { u.prof with working := u.prof.stored, bad := true })).trans
        (withProf_quiet _)).scheduleSafe hu)
  case profileCheck =>
    cases e
    refine request fun u hu => ?_
    split
    · exact answered _ _ _ _ _ hu
    · exact answered _ _ _ _ _ ((withProf_quiet u).scheduleSafe hu)
  case enterService =>
    cases e
    refine request fun u hu => ?_
    split
    · exact answered _ _ _ _ _ hu
    · exact answered _ _ _ _ _ ((withProf_quiet u).scheduleSafe hu)
  case profileStoreCompletion =>
    cases e; split
    · exact scheduleSafe_keptByFrames.raise _ _ ((withProf_quiet s).scheduleSafe h)
    · exact h
  case profileMemoryFault => cases e; exact (withProf_quiet s).scheduleSafe h
  case profileCheckCompletion =>
    cases e; split
    · split
      · next passed => exact checkPassed_scheduleSafe _ passed h
      · exact checkFailed_scheduleSafe _ _ h
    · exact h
  case enterMaintenance =>
    cases e
    refine request fun u hu => ?_
    split
    · exact answered _ _ _ _ _ hu
    · exact answered _ _ _ _ _ hu
    · next faulted => exact answered _ _ _ _ _ (setMode_scheduleSafe _ (by rw [faulted]; decide) hu)
    · split
      · exact answered _ _ _ _ _ hu
      · exact answered _ _ _ _ _ (scheduleSafe_after_setMode (leaveService_quiet _) (.inr rfl) hu)
  case clockSet =>
    cases e
    refine request fun u hu => ?_
    split
    · exact answered _ _ _ _ _ hu
    · next taken => exact answered _ _ _ _ _ (takeClockSet_scheduleSafe taken hu)
  case clockTrim =>
    cases e
    refine request fun u hu => ?_
    split
    · exact answered _ _ _ _ _ hu
    · split
      · exact answered _ _ _ _ _ hu
      · exact answered _ _ _ _ _ (takeTrim_scheduleSafe _ hu)
  case submit =>
    cases e
    refine request fun u hu => ?_
    split
    · exact answered _ _ _ _ _ hu
    · next candidate passed =>
      obtain ⟨-, set, free, fits⟩ := preCheck_ok passed
      have handed := handOver_scheduleSafe set free fits hu
      dsimp only; split
      · exact handed
      · exact answered _ _ _ _ _ handed
  case withdraw =>
    cases e
    refine request fun u hu => ?_
    split
    · exact answered _ _ _ _ _ hu
    · next found =>
      split
      · exact answered _ _ _ _ _ hu
      · split
        · exact answered _ _ _ _ _ hu
        · next beyond => exact answered _ _ _ _ _ (removeBlock_scheduleSafe found beyond hu)
  case checkMode =>
    cases e
    refine request fun u hu => ?_
    split
    · exact answered _ _ _ _ _ hu
    · split
      · exact answered _ _ _ _ _ hu
      · exact answered _ _ _ _ _ (scheduleSafe_congr (s := u) rfl rfl rfl rfl rfl rfl rfl rfl hu)
  case abandon =>
    cases e
    refine request fun u hu => ?_
    split
    · exact scheduleSafe_keptByFrames.reportEnd _ _ _ (answered _ _ _ _ _ (dropCheck_scheduleSafe hu))
    · exact answered _ _ _ _ _ hu
  case checkCompletion =>
    cases e; split
    · next running => exact completeCheck_scheduleSafe running h
    · exact h
  case reviewCompletion =>
    cases e; split
    · next running => exact reviewCompletion_scheduleSafe running h
    · exact h
  case activate requested =>
    cases e
    refine request fun u hu => ?_
    split
    · next service =>
      have bounds := band_bounds u.band requested.toInt
      exact answered _ _ _ _ _
        { book := ⟨hu.book.ordered, hu.book.lengths, hu.book.size, hu.book.oneCheck, hu.book.candidate⟩
          ring := ⟨hu.ring.size, hu.ring.increasing, hu.ring.openInterval, hu.ring.earlier⟩
          grant := ⟨settingsSafe_congr (s := u) rfl hu.grant.settings, hu.grant.loaded, bounds.1, bounds.2,
            fun away => absurd service away⟩ }
    · exact answered _ _ _ _ _ hu
  case poll => cases e; exact request fun u hu => answered _ _ _ _ _ hu
  case tripFallingEdge =>
    cases e; split
    · exact (fallingEdge_quiet s _).scheduleSafe h
    · exact h
  case tripRisingEdge =>
    cases e; split
    · exact h
    · exact (risingEdge_quiet s _).scheduleSafe h
  case frameDiscard p _ | unknownKind p _ | badLength p _ _ | responseSent p | status p | causes p | enables p _ | clearLink p =>
    exact scheduleSafe_keptByFrames.exec ⟨p, rfl⟩ h e
  case trainRead | profileRead => exact scheduleSafe_keptByFrames.exec ⟨.pp, rfl⟩ h e
  case bookRead | position | recordRead => exact scheduleSafe_keptByFrames.exec ⟨.tp, rfl⟩ h e
  all_goals exact scheduleSafe_keptByTime.exec (isTimeEvent_of_parts rfl) h e

/-- Settles O57: time moves the schedule only at the interval boundary, and beside it the book changes only at or beyond the gate, so that
the current block and the grant's band stay. -/
theorem stepsKeepTheScheduleInOrder : Obligations.StepsKeepTheScheduleInOrder := fun s _ h e =>
  step_keeps (fun q h => scheduleSafe_congr (s := s) (t := s.withPending q) rfl rfl rfl rfl rfl rfl rfl rfl h)
    (fun h => scheduleSafe_keptByTime.passMillisecond (scheduleSafe_keptByFrames.port .tp _ h))
    (fun c _ h e => exec_scheduleSafe c h e) h e

end Sys2Proof.Proofs
end

section
/-! O59: one response for each frame taken. A request finds its port free, so no response stands in its queue when its own is built, and on
the trade port no check is held then; a held check's response is the one still to come (R80, R177, R179). -/

namespace Sys2Proof.Proofs
open Sys2Proof Sys2Proof.Machine

/-! ### The lengths of the fields of a response -/

@[simp] theorem length_beBytes (k n : Nat) : (beBytes k n).length = k := by
  induction k with
  | zero => rfl
  | succ k ih => simp [beBytes, ih]

@[simp] theorem length_u8 (n : Nat) : (u8 n).length = 1 := length_beBytes 1 n
@[simp] theorem length_u16 (n : Nat) : (u16 n).length = 2 := length_beBytes 2 n
@[simp] theorem length_u32 (n : Nat) : (u32 n).length = 4 := length_beBytes 4 n
@[simp] theorem length_s16 (x : Int) : (s16 x).length = 2 := length_beBytes 2 _
@[simp] theorem length_s32 (x : Int) : (s32 x).length = 4 := length_beBytes 4 _
@[simp] theorem length_s64 (x : Int) : (s64 x).length = 8 := length_beBytes 8 _
@[simp] theorem length_yesNo (b : Bool) : (yesNo b).length = 1 := rfl

@[simp] theorem length_orAbsent (k : Nat) (x : Option Nat) : (orAbsent k x).length = k := by
  cases x <;> simp [orAbsent, absentField]

@[simp] theorem length_orZero (k : Nat) (x : Option Nat) : (orZero k x).length = k := by cases x <;> simp [orZero]

@[simp] theorem length_timerBytes (now : Nat) (t : Timer) : (t.bytes now).length = 6 := by simp [Timer.bytes]
@[simp] theorem length_holdBytes (now : Nat) (h : Option Nat) : (holdBytes now h).length = 5 := by simp [holdBytes]
@[simp] theorem length_termsBytes (b : Terms) : b.bytes.length = 20 := by simp [Terms.bytes]
@[simp] theorem length_recordBytes (r : ClosedRecord) : r.bytes.length = 73 := by simp [ClosedRecord.bytes]
@[simp] theorem length_bookBytes (s : State) : s.bookBytes.length = 7 := by simp [State.bookBytes]
@[simp] theorem length_ringBytes (s : State) : s.ringBytes.length = 13 := by simp [State.ringBytes]
@[simp] theorem length_bandBytes (s : State) : s.bandBytes.length = 18 := by simp [State.bandBytes]
@[simp] theorem length_positionFields (s : State) : s.positionFields.length = 27 := by simp [State.positionFields]
@[simp] theorem length_trainFields (s : State) (x : Train) : (s.trainFields x).length = 59 := by simp [State.trainFields]

@[simp] theorem length_orderBytes (s : State) (x : Train) : (s.orderBytes x).length = 5 := by
  unfold State.orderBytes; split <;> simp

@[simp] theorem length_meterFields (s : State) : s.meterFields.length = 62 := by simp [State.meterFields, Train.all]

theorem length_statusFields (s : State) (p : Port) : (s.statusFields p).length ≤ 20 := by
  unfold State.statusFields; split <;> simp

@[simp] theorem length_reportFields (c : Terms) (f : Option Failure) (r : BitVec 16) : (reportFields c f r).length = 10 := by
  simp [reportFields]

/-! ### One port -/

/-- A frame that is made of a payload of at most 120 bytes has the form of R174. -/
theorem wellFramed_make (kind : Byte) {payload : List Byte} (h : payload.length ≤ 120) : wellFramed (Frame.make kind payload) := by
  refine ⟨h, ?_, rfl⟩
  show (BitVec.ofNat 8 payload.length).toNat = payload.length
  rw [BitVec.toNat_ofNat]; omega

/-- The queue of a port keeps the rule of one response. -/
structure PortOk (x : PortState) : Prop where
  framed : ∀ f ∈ x.output, wellFramed f
  none : x.owed = false → x.responses = 0
  one : x.responses ≤ 1

/-- A request has been taken on the port and its response is not built yet. -/
structure Awaits (x : PortState) : Prop where
  framed : ∀ f ∈ x.output, wellFramed f
  owed : x.owed = true
  none : x.responses = 0

theorem Awaits.ok {x : PortState} (h : Awaits x) : PortOk x := ⟨h.framed, fun _ => h.none, by rw [h.none]; omega⟩

theorem PortOk.congr {x y : PortState} (output : y.output = x.output) (owed : y.owed = x.owed) (h : PortOk x) : PortOk y := by
  have same : y.responses = x.responses := by unfold PortState.responses; rw [output]
  exact ⟨by rw [output]; exact h.framed, by rw [owed, same]; exact h.none, by rw [same]; exact h.one⟩

theorem Awaits.congr {x y : PortState} (output : y.output = x.output) (owed : y.owed = x.owed) (h : Awaits x) : Awaits y := by
  have same : y.responses = x.responses := by unfold PortState.responses; rw [output]
  exact ⟨by rw [output]; exact h.framed, by rw [owed]; exact h.owed, by rw [same]; exact h.none⟩

theorem responses_append (x y : PortState) (f : Frame) (output : y.output = x.output ++ [f]) :
    y.responses = x.responses + if f.kind = noticeKind then 0 else 1 := by
  unfold PortState.responses
  rw [output, List.filter_append, List.length_append]
  split
  · next notice => simp [notice]
  · next response => simp [response]

theorem framed_append {l : List Frame} {f : Frame} (h : ∀ g ∈ l, wellFramed g) (hf : wellFramed f) : ∀ g ∈ l ++ [f], wellFramed g := by
  intro g hg
  rcases List.mem_append.mp hg with old | new
  · exact h g old
  · rw [List.mem_singleton.mp new]; exact hf

/-- The awaited response joins the queue (R179). -/
theorem Awaits.answer {x y : PortState} {f : Frame} (h : Awaits x) (hf : wellFramed f) (output : y.output = x.output ++ [f])
    (owed : y.owed = x.owed) : PortOk y where
  framed := by rw [output]; exact framed_append h.framed hf
  none free := by rw [owed, h.owed] at free; cases free
  one := by rw [responses_append x y f output, h.none]; split <;> omega

/-- A notice joins the queue and is no response (R179). -/
theorem responses_notice {x y : PortState} {f : Frame} (notice : f.kind = noticeKind) (output : y.output = x.output ++ [f]) :
    y.responses = x.responses := by rw [responses_append x y f output, if_pos notice]; rfl

/-! ### The engine beside the ports -/

/-- What the invariant asks beside the queues. -/
structure EngineOk (s : State) : Prop where
  held : s.inFlight.isSome = true → s.prj.checkMode = .hold → (s.port .tp).owed = true ∧ (s.port .tp).responses = 0
  applied : s.inFlight.isSome = true → s.prj.defaultApplied = true
  loaded : s.settings.isSome = true → s.prj.defaultApplied = true
  service : s.prof.mode = .service → s.settings.isSome = true
  oneCheck : s.prj.waiting.isSome = true → ∃ snap, s.prj.running = some (.review snap)
  released : s.resetHeld = false

theorem portsSafe_iff (s : State) : s.PortsSafe ↔ (∀ p, PortOk (s.port p)) ∧ EngineOk s :=
  ⟨fun h => ⟨fun p => ⟨h.framed p, h.none p, h.one p⟩, ⟨h.held, h.applied, h.loaded, h.service, h.oneCheck, h.released⟩⟩,
    fun ⟨p, e⟩ => ⟨fun q => (p q).framed, fun q => (p q).none, fun q => (p q).one, e.held, e.applied, e.loaded, e.service, e.oneCheck,
      e.released⟩⟩

theorem portOk_of_safe {s : State} (h : s.PortsSafe) (p : Port) : PortOk (s.port p) := ((portsSafe_iff s).mp h).1 p

/-- The queues keep their frames and the check stays. -/
theorem KeepsCheck.portsSafe {s t : State} (k : KeepsCheck s t) (h : s.PortsSafe) : t.PortsSafe := by
  refine (portsSafe_iff t).mpr ⟨fun p => ?_, ?_⟩
  · obtain ⟨causes, same⟩ := k.ports p
    exact PortOk.congr (by rw [same]) (by rw [same]) ⟨h.framed p, h.none p, h.one p⟩
  · obtain ⟨causes, same⟩ := k.ports .tp
    refine ⟨?_, ?_, ?_, ?_, ?_, ?_⟩
    · rw [k.inFlight, k.checkMode, same]; exact h.held
    · rw [k.inFlight, k.applied]; exact h.applied
    · rw [k.settings, k.applied]; exact h.loaded
    · rw [k.mode, k.settings]; exact h.service
    · intro waits
      obtain ⟨snap, review⟩ := h.oneCheck (k.waiting ▸ waits)
      rcases k.running with stays | ⟨idle, -⟩
      · exact ⟨snap, stays.trans review⟩
      · rw [idle] at review; cases review
    · rw [k.resetHeld]; exact h.released

/-- A port whose queue stays. -/
theorem portsSafe_setPort {s : State} {p : Port} {x : PortState} (output : x.output = (s.port p).output)
    (owed : x.owed = (s.port p).owed) (h : s.PortsSafe) : (s.setPort p x).PortsSafe := by
  have port (q : Port) : ((s.setPort p x).port q).output = (s.port q).output ∧ ((s.setPort p x).port q).owed = (s.port q).owed := by
    by_cases same : q = p
    · subst same; rw [port_setPort]; exact ⟨output, owed⟩
    · rw [port_setPort_ne s p q x same]; exact ⟨rfl, rfl⟩
  refine (portsSafe_iff _).mpr ⟨fun q => PortOk.congr (port q).1 (port q).2 ⟨h.framed q, h.none q, h.one q⟩,
    ⟨fun flight hold => ?_, h.applied, h.loaded, h.service, h.oneCheck, h.released⟩⟩
  have held := h.held flight hold
  refine ⟨(port .tp).2.trans held.1, ?_⟩
  unfold PortState.responses
  rw [(port .tp).1]
  exact held.2

theorem countError_portsSafe {s : State} (p : Port) (h : s.PortsSafe) : (s.countError p).PortsSafe := by
  rw [countError_eq]; exact portsSafe_setPort rfl rfl h

theorem raise_portsSafe {s : State} (p : Port) (c : Cause) (h : s.PortsSafe) : (s.raise p c).PortsSafe :=
  (raise_quiet s p c).toKeepsCheck.portsSafe h

/-! ### A request in the state in which it acts -/

/-- The request of port `p` acts: its response is awaited, and on the trade port no check is held. -/
structure Answering (s : State) (p : Port) : Prop where
  safe : s.PortsSafe
  awaits : Awaits (s.port p)
  notHeld : p = .tp → s.inFlight.isSome = true → s.prj.checkMode ≠ .hold

theorem taken_answering {s : State} {p : Port} (free : s.free p) (h : s.PortsSafe) : Answering (s.taken p) p := by
  have awaits : Awaits ((s.taken p).port p) := by
    rw [port_taken]
    exact ⟨h.framed p, rfl, h.none p free.2⟩
  have notHeld : p = .tp → s.inFlight.isSome = true → s.prj.checkMode ≠ .hold := by
    rintro rfl flight hold
    have owed := (h.held flight hold).1
    rw [free.2] at owed; cases owed
  refine ⟨(portsSafe_iff _).mpr ⟨fun q => ?_, ⟨fun flight hold => ?_, h.applied, h.loaded, h.service, h.oneCheck, h.released⟩⟩, awaits,
    notHeld⟩
  · by_cases same : q = p
    · exact same ▸ awaits.ok
    · rw [port_taken_ne s p q same]; exact portOk_of_safe h q
  · by_cases same : p = .tp
    · exact absurd hold (notHeld same flight)
    · rw [port_taken_ne s p .tp fun e => same e.symm]; exact h.held flight hold

theorem Answering.keeps {s t : State} {p : Port} (k : KeepsCheck s t) (h : Answering s p) : Answering t p where
  safe := k.portsSafe h.safe
  awaits := by
    obtain ⟨causes, same⟩ := k.ports p
    rw [same]; exact Awaits.congr (x := s.port p) rfl rfl h.awaits
  notHeld trade := by rw [k.inFlight, k.checkMode]; exact h.notHeld trade

/-- A frame joins a queue that awaits it. -/
theorem Answering.append {s : State} {p : Port} {f : Frame} {x : PortState} (h : Answering s p) (hf : wellFramed f)
    (output : x.output = (s.port p).output ++ [f]) (owed : x.owed = (s.port p).owed) : (s.setPort p x).PortsSafe := by
  refine (portsSafe_iff _).mpr ⟨fun q => ?_, ⟨fun flight hold => ?_, h.safe.applied, h.safe.loaded, h.safe.service, h.safe.oneCheck,
    h.safe.released⟩⟩
  · by_cases same : q = p
    · subst same; rw [port_setPort]; exact h.awaits.answer hf output owed
    · rw [port_setPort_ne s p q x same]
      exact portOk_of_safe h.safe q
  · by_cases same : p = .tp
    · exact absurd hold (h.notHeld same flight)
    · rw [port_setPort_ne s p .tp x fun e => same e.symm]; exact h.safe.held flight hold

theorem Answering.answer {s : State} {p : Port} (h : Answering s p) (k : Byte) (r : Result) {l : List Byte}
    (length : l.length ≤ 118 := by simp) : (s.answer p k r l).PortsSafe :=
  h.append (wellFramed_make k (by simp; omega)) rfl rfl

theorem Answering.respond {s : State} {p : Port} (h : Answering s p) (k : Byte) (r : Result) {l : List Byte}
    (length : l.length ≤ 118 := by simp) : (s.respond p k r l).PortsSafe := h.answer _ r length

theorem takeFrame_portsSafe {s : State} {p : Port} {act : State → State} (acts : ∀ u : State, Answering u p → (act u).PortsSafe)
    (h : s.PortsSafe) : (s.takeFrame p act).PortsSafe :=
  takeFrame_keeps (I := State.PortsSafe) (portsSafe_setPort rfl rfl) (fun _ hu _ => countError_portsSafe p hu)
    (fun _ hu free => acts _ (taken_answering free hu)) h

/-! ### The end of a check -/

/-- A check's end may be reported once no check is in flight: in HOLD mode its response is the awaited one (R80, R81). -/
theorem reportEnd_portsSafe {s : State} (c : Terms) (r : Result) (f : Option Failure) (ended : s.inFlight = none)
    (held : s.prj.checkMode = .hold → Awaits (s.port .tp)) (h : s.PortsSafe) : (s.reportEnd c r f).PortsSafe := by
  unfold State.reportEnd; split
  · next hold =>
    exact Answering.respond ⟨h, held hold, fun _ flight => by rw [ended] at flight; cases flight⟩ _ _
  · next notify =>
    have raised := raise_portsSafe .tp .checkDone h
    have ended : (s.raise .tp .checkDone).inFlight = none := ended
    generalize s.raise .tp .checkDone = u at raised ended
    have framed : wellFramed (Frame.make noticeKind (u.statusByte .tp :: r.code :: reportFields c f s.book.revision)) :=
      wellFramed_make _ (by simp)
    unfold State.notice
    refine (portsSafe_iff _).mpr ⟨fun q => ?_, ⟨fun flight => ?_, raised.applied, raised.loaded, raised.service, raised.oneCheck,
      raised.released⟩⟩
    · by_cases same : q = .tp
      · subst same
        rw [port_setPort]
        have responses := responses_notice (x := u.port .tp) (y := { u.port .tp with
          output := (u.port .tp).output ++ [Frame.make noticeKind (u.statusByte .tp :: r.code :: reportFields c f s.book.revision)] })
          rfl rfl
        exact ⟨framed_append (raised.framed .tp) framed, fun free => responses.trans (raised.none .tp free),
          responses.trans_le (raised.one .tp)⟩
      · rw [port_setPort_ne u .tp q _ same]; exact portOk_of_safe raised q
    · have none : u.inFlight.isSome = true := flight
      rw [ended] at none; cases none

/-- A change of the engine that leaves no check in flight but one that was. -/
theorem withPrj_portsSafe {s : State} (e : Engine) (checkMode : e.checkMode = s.prj.checkMode) (applied : e.defaultApplied = s.prj.defaultApplied)
    (flight : (s.withPrj e).inFlight.isSome = true → s.inFlight.isSome = true)
    (oneCheck : e.waiting.isSome = true → ∃ snap, e.running = some (.review snap)) (h : s.PortsSafe) : (s.withPrj e).PortsSafe where
  framed := h.framed
  none := h.none
  one := h.one
  held some hold := h.held (flight some) (checkMode ▸ hold)
  applied some := applied.trans (h.applied (flight some))
  loaded some := applied.trans (h.loaded some)
  service := h.service
  oneCheck := oneCheck
  released := h.released

theorem running_review_of_waiting {s : State} {c : Terms} (waits : s.prj.waiting = some c) (h : s.PortsSafe) :
    s.inFlight = some c := by
  obtain ⟨snap, review⟩ := h.oneCheck (by rw [waits]; rfl)
  rw [inFlight_of_review review, waits]

theorem inFlight_of_idle {s : State} (idle : s.prj.running = none) : s.inFlight = s.prj.waiting := by
  unfold State.inFlight; rw [idle]

theorem awaits_of_held {s : State} (h : s.PortsSafe) (flight : s.inFlight.isSome = true) (hold : s.prj.checkMode = .hold) :
    Awaits (s.port .tp) := ⟨h.framed .tp, (h.held flight hold).1, (h.held flight hold).2⟩

/-- The engine passed on: a check that waited stays in flight, or is reported at once (R68, R71). -/
theorem passOn_portsSafe {s : State} (h : s.PortsSafe) : s.passOn.PortsSafe := by
  unfold State.passOn; dsimp only
  split
  · next review =>
    have can := (Bool.and_eq_true_iff.mp review).2
    unfold State.canReview at can
    simp only [Bool.and_eq_true, Option.isSome_iff_exists] at can
    obtain ⟨-, k, set⟩ := can
    rw [startReview_of_clock set]
    refine withPrj_portsSafe (s := s) _ rfl rfl (fun flight => ?_) (fun _ => ⟨_, rfl⟩) h
    obtain ⟨c, waits⟩ := Option.isSome_iff_exists.mp flight
    rw [running_review_of_waiting (s := s) waits h]; rfl
  · split
    · next c waits =>
      have waits : s.prj.waiting = some c := waits
      have flight : s.inFlight.isSome = true := by rw [running_review_of_waiting waits h]; rfl
      cases set : s.tb.clock with
      | some k =>
        rw [startCheck_of_clock (s := s.withPrj { s.prj with running := none }) (k := k) set]
        exact withPrj_portsSafe (s := s) _ rfl rfl (fun _ => flight) nofun h
      | none =>
        rw [startCheck_of_unset (s := s.withPrj { s.prj with running := none }) set]
        exact reportEnd_portsSafe _ _ _ rfl (awaits_of_held (s := s) h flight) (withPrj_portsSafe (s := s) _ rfl rfl nofun nofun h)
    · next none =>
      have none : s.prj.waiting = Option.none := none
      refine withPrj_portsSafe _ rfl rfl (fun flight => ?_) (fun waits => ?_) h
      · rw [inFlight_of_idle (s := s.withPrj { s.prj with running := Option.none }) rfl, State.withPrj_prj, none] at flight
        cases flight
      · rw [none] at waits; cases waits

/-- Where no check waits, passing on leaves none in flight and touches no port (R71). -/
theorem passOn_of_no_wait {s : State} (none : s.prj.waiting = none) :
    s.passOn.inFlight = Option.none ∧ s.passOn.prj.checkMode = s.prj.checkMode ∧ s.passOn.port .tp = s.port .tp := by
  unfold State.passOn; dsimp only
  generalize hu : s.withPrj { s.prj with running := Option.none } = u
  have idle : u.prj.running = Option.none := by rw [← hu]; rfl
  have waits : u.prj.waiting = Option.none := by rw [← hu]; exact none
  have mode : u.prj.checkMode = s.prj.checkMode := by rw [← hu]; rfl
  have port : u.port .tp = s.port .tp := by rw [← hu]; rfl
  split
  · have q := startReview_quiet idle
    exact ⟨by rw [q.inFlight, inFlight_of_idle idle, waits], q.checkMode.trans mode,
      (port_of_frame (startReview_frame u) .tp (by decide)).trans port⟩
  · rw [waits]
    exact ⟨by rw [inFlight_of_idle idle, waits], mode, port⟩

theorem waiting_none_of_check_running {s : State} {c : Terms} {snap : Snapshot} (running : s.prj.running = some (.check c snap))
    (h : s.PortsSafe) : s.prj.waiting = none := by
  refine Option.not_isSome_iff_eq_none.mp fun waits => ?_
  obtain ⟨other, review⟩ := h.oneCheck waits
  rw [running] at review
  cases review

theorem completeCheck_portsSafe {s : State} {c : Terms} {snap : Snapshot} (running : s.prj.running = some (.check c snap))
    (h : s.PortsSafe) : (s.completeCheck c snap).PortsSafe := by
  unfold State.completeCheck; dsimp only
  generalize hu : (if s.checkOutcome c snap (snap.walk (some c)) = .accepted then s.acceptBlock c (snap.walk (some c)) else s) = u
  have marked : KeepsCheck s u := by
    rw [← hu]; split
    · exact setMarks_keepsCheck s _ _ _
    · exact (Quiet.refl s).toKeepsCheck
  have safe := marked.portsSafe h
  have none : u.prj.waiting = Option.none := marked.waiting.trans (waiting_none_of_check_running running h)
  obtain ⟨ended, mode, port⟩ := passOn_of_no_wait none
  refine reportEnd_portsSafe _ _ _ ended (fun hold => ?_) (passOn_portsSafe safe)
  rw [port]
  refine awaits_of_held safe ?_ (mode ▸ hold)
  rw [marked.inFlight, inFlight_of_check running]; rfl

/-! ### Requests on the check -/

theorem handOver_portsSafe {s : State} {c : Terms} (set : s.tb.clock ≠ none) (free : s.inFlight = none)
    (service : s.prof.mode = .service) (h : Answering s .tp) :
    (s.handOver c).PortsSafe ∧ ((s.handOver c).prj.checkMode ≠ .hold → Answering (s.handOver c) .tp) := by
  obtain ⟨k, set⟩ := Option.ne_none_iff_exists'.mp set
  have applied := h.safe.loaded (h.safe.service service)
  have withEngine (e : Engine) (same : e.defaultApplied = s.prj.defaultApplied)
      (one : e.waiting.isSome = true → ∃ snap, e.running = some (.review snap)) :
      (s.withPrj e).PortsSafe ∧ ((s.withPrj e).prj.checkMode ≠ .hold → Answering (s.withPrj e) .tp) := by
    have safe : (s.withPrj e).PortsSafe :=
      { framed := h.safe.framed
        none := h.safe.none
        one := h.safe.one
        held := fun _ _ => ⟨h.awaits.owed, h.awaits.none⟩
        applied := fun _ => same.trans applied
        loaded := fun _ => same.trans applied
        service := h.safe.service
        oneCheck := one
        released := h.safe.released }
    exact ⟨safe, fun notify => ⟨safe, h.awaits, fun _ _ => notify⟩⟩
  unfold State.handOver; split
  · rw [startCheck_of_clock set]; exact withEngine _ rfl nofun
  · next busy =>
    cases running : s.prj.running with
    | none => rw [running] at busy; exact absurd rfl busy
    | some job =>
      cases job with
      | check other snap => rw [inFlight_of_check running] at free; cases free
      | review snap => exact withEngine _ rfl fun _ => ⟨snap, running⟩

/-- In NOTIFY mode the check in flight is dropped, and the response to ABANDON still awaited (R83). -/
theorem dropCheck_answering {s : State} (notify : s.prj.checkMode = .notify) (h : Answering s .tp) :
    Answering s.dropCheck .tp ∧ s.dropCheck.inFlight = none ∧ s.dropCheck.prj.checkMode = .notify := by
  unfold State.dropCheck; split
  · next running =>
    obtain ⟨ended, mode, port⟩ := passOn_of_no_wait (waiting_none_of_check_running running h.safe)
    exact ⟨⟨passOn_portsSafe h.safe, by rw [port]; exact h.awaits, fun _ flight => by rw [ended] at flight; cases flight⟩, ended,
      mode.trans notify⟩
  · next idle =>
    have ended : (s.withPrj { s.prj with waiting := none }).inFlight = none := by
      unfold State.inFlight; split
      · next running => exact absurd running (idle _ _)
      · rfl
    exact ⟨⟨withPrj_portsSafe _ rfl rfl (by rw [ended]; exact nofun) nofun h.safe, h.awaits,
      fun _ flight => by rw [ended] at flight; cases flight⟩, ended, notify⟩

/-! ### A sent response -/

theorem afterResponse_sublist : ∀ l : List Frame, (afterResponse l).Sublist l
  | [] => .slnil
  | f :: rest => by
    unfold afterResponse; split
    · exact (afterResponse_sublist rest).cons f
    · exact List.sublist_cons_self f rest

theorem responses_afterResponse (x y : PortState) (holds : holdsResponse x.output = true) (one : x.responses ≤ 1)
    (output : y.output = afterResponse x.output) : y.responses = 0 := by
  have count : ∀ l : List Frame, holdsResponse l = true → (l.filter fun f => decide (f.kind ≠ noticeKind)).length ≤ 1 →
      ((afterResponse l).filter fun f => decide (f.kind ≠ noticeKind)).length = 0 := by
    intro l
    induction l with
    | nil => exact fun h _ => absurd h (by decide)
    | cons f rest ih =>
      intro h le
      unfold afterResponse
      by_cases notice : f.kind = noticeKind
      · rw [if_pos notice]
        refine ih ?_ ?_
        · simpa [holdsResponse, notice] using h
        · simpa [notice] using le
      · rw [if_neg notice]
        simpa [notice] using le
  unfold PortState.responses at one ⊢
  rw [output]
  exact count _ holds one

theorem sent_portsSafe {s : State} {p : Port} (holds : holdsResponse (s.port p).output = true) (h : s.PortsSafe) :
    (s.setPort p { s.port p with owed := false, output := afterResponse (s.port p).output }).PortsSafe := by
  have none := responses_afterResponse (s.port p) { s.port p with owed := false, output := afterResponse (s.port p).output } holds
    (h.one p) rfl
  refine (portsSafe_iff _).mpr ⟨fun q => ?_, ⟨fun flight hold => ?_, h.applied, h.loaded, h.service, h.oneCheck, h.released⟩⟩
  · by_cases same : q = p
    · subst same; rw [port_setPort]
      exact ⟨fun f hf => h.framed q f ((afterResponse_sublist _).subset hf), fun _ => none, by rw [none]; omega⟩
    · rw [port_setPort_ne s p q _ same]; exact portOk_of_safe h q
  · have held := h.held flight hold
    by_cases same : p = .tp
    · subst same
      have empty := held.2
      unfold PortState.responses at empty
      unfold holdsResponse at holds
      obtain ⟨f, hf, kind⟩ := List.any_eq_true.mp holds
      have some : f ∈ (s.port .tp).output.filter fun f => decide (f.kind ≠ noticeKind) := List.mem_filter.mpr ⟨hf, kind⟩
      have := List.length_pos_of_mem some
      omega
    · rw [port_setPort_ne s p .tp _ fun e => same e.symm]; exact held

theorem dropSentNotice_sublist : ∀ l : List Frame, (dropSentNotice l).Sublist l
  | [] => .slnil
  | f :: rest => by
    rw [dropSentNotice]; split
    · exact List.sublist_cons_self f rest
    · exact List.Sublist.refl _

theorem dropSentNotice_responses : ∀ l : List Frame,
    (dropSentNotice l).filter (fun f => decide (f.kind ≠ noticeKind)) = l.filter fun f => decide (f.kind ≠ noticeKind)
  | [] => rfl
  | f :: rest => by
    rw [dropSentNotice]; split
    · next notice => simp [notice]
    · rfl

theorem sendNotice_portsSafe {s : State} (h : s.PortsSafe) : s.sendNotice.PortsSafe := by
  have sub := dropSentNotice_sublist (s.port .tp).output
  have same : ((dropSentNotice (s.port .tp).output).filter fun f => decide (f.kind ≠ noticeKind)).length =
      (s.port .tp).responses := congrArg _ (dropSentNotice_responses _)
  unfold State.sendNotice
  refine (portsSafe_iff _).mpr ⟨fun q => ?_, ⟨fun flight hold => ?_, h.applied, h.loaded, h.service, h.oneCheck, h.released⟩⟩
  · by_cases trade : q = .tp
    · subst trade; rw [port_setPort]
      exact ⟨fun f hf => h.framed .tp f (sub.subset hf), fun free => same.trans (h.none .tp free), same.trans_le (h.one .tp)⟩
    · rw [port_setPort_ne s .tp q _ trade]; exact portOk_of_safe h q
  · rw [port_setPort]
    exact ⟨(h.held flight hold).1, same.trans (h.held flight hold).2⟩

/-! ### Device time, modes and checks -/

theorem portsSafe_keptByTime : KeptByTime State.PortsSafe where
  time {s b} _ h := (withTb_keepsCheck s b).portsSafe h
  tick h := (tickParts_quiet _).toKeepsCheck.portsSafe h
  fire e h := (fire_quiet _ e).toKeepsCheck.portsSafe h
  boundary m h := (boundary_keepsCheck _ m).portsSafe h

/-- A change of the mode alone: SERVICE needs loaded settings. -/
theorem withMode_portsSafe {s : State} (m : Mode) (loaded : m = .service → s.settings.isSome = true) (h : s.PortsSafe) :
    (s.withProf { s.prof with mode := m }).PortsSafe where
  framed := h.framed
  none := h.none
  one := h.one
  held := h.held
  applied := h.applied
  loaded := h.loaded
  service := loaded
  oneCheck := h.oneCheck
  released := h.released

theorem setMode_portsSafe {s : State} (m : Mode) (loaded : m = .service → s.settings.isSome = true) (h : s.PortsSafe) :
    (s.setMode m).PortsSafe := raise_portsSafe .gp .mode (raise_portsSafe .tp .mode (withMode_portsSafe m loaded h))

theorem setMode_answering {s : State} {p : Port} (m : Mode) (loaded : m = .service → s.settings.isSome = true) (h : Answering s p) :
    Answering (s.setMode m) p := by
  have moved : Answering (s.withProf { s.prof with mode := m }) p := ⟨withMode_portsSafe m loaded h.safe, h.awaits, h.notHeld⟩
  exact (moved.keeps (raise_quiet _ .tp .mode).toKeepsCheck).keeps (raise_quiet _ .gp .mode).toKeepsCheck

/-- The default check mode is applied once: before it no settings are loaded and no check can be in flight (R65). -/
theorem applyDefaultMode_portsSafe {s u : State} {c : Settings} (m : CheckMode) (k : KeepsCheck (s.withSettings (some c)) u)
    (h : s.PortsSafe) : (u.applyDefaultMode m).PortsSafe := by
  have port (p : Port) : PortOk (u.port p) := by
    obtain ⟨causes, same⟩ := k.ports p
    rw [same]; exact PortOk.congr (x := s.port p) rfl rfl (portOk_of_safe h p)
  have flight : u.inFlight = s.inFlight := k.inFlight
  have oneCheck : u.prj.waiting.isSome = true → ∃ snap, u.prj.running = some (.review snap) := by
    intro waits
    obtain ⟨snap, review⟩ := h.oneCheck (k.waiting ▸ waits)
    rcases k.running with stays | ⟨idle, -⟩
    · exact ⟨snap, stays.trans review⟩
    · exact absurd (idle.symm.trans review) nofun
  have settings : u.settings.isSome = true := by rw [k.settings]; rfl
  have released : u.resetHeld = false := k.resetHeld.trans h.released
  unfold State.applyDefaultMode
  split
  · next applied =>
    refine (portsSafe_iff u).mpr ⟨port, ⟨fun some hold => ?_, fun _ => applied, fun _ => applied, fun _ => settings, oneCheck, released⟩⟩
    obtain ⟨causes, same⟩ := k.ports .tp
    rw [same]
    exact h.held (flight ▸ some) (k.checkMode ▸ hold)
  · next fresh =>
    have none : ¬ s.inFlight.isSome = true := fun some => fresh (k.applied.trans (h.applied some))
    rw [← flight] at none
    exact (portsSafe_iff _).mpr ⟨port, ⟨fun some => absurd some none, fun _ => rfl, fun _ => rfl, fun _ => settings, oneCheck, released⟩⟩

theorem handValues_portsSafe {s : State} {image : Image} (h : s.PortsSafe) :
    (s.handValues image).PortsSafe ∧ (s.handValues image).settings.isSome = true := by
  unfold State.handValues; dsimp only
  have given := (loadInventory_quiet (s.withSettings (some (.ofImage image))) (s.withSettings (some (.ofImage image))).cfg).toKeepsCheck.trans
    (applyLength_keepsCheck _ (s.settings.map Settings.intervalLength))
  generalize State.applyLength _ _ = u at given
  have applied := applyDefaultMode_portsSafe image.defaultCheckMode given h
  have settings : (u.applyDefaultMode image.defaultCheckMode).settings = some (.ofImage image) :=
    (frame_settings (applyDefaultMode_frame _ _)).trans given.settings
  have rest := ((foldl_quiet applyInstalled_quiet Train.all (u.applyDefaultMode image.defaultCheckMode)).trans
    (clampSetpoints_quiet _)).trans (firstLinkLoad_quiet _ s.settings.isSome)
  exact ⟨rest.toKeepsCheck.portsSafe applied, by rw [rest.settings, settings]; rfl⟩

theorem checkPassed_portsSafe {s : State} (purpose : Purpose) (image : Image) (h : s.PortsSafe) :
    (s.checkPassed purpose image).PortsSafe := by
  unfold State.checkPassed; dsimp only
  refine raise_portsSafe .pp _ ?_
  obtain ⟨handed, loaded⟩ := handValues_portsSafe (image := image) ((withProf_quiet s (f := { s.prof with
    bad := false, lastCheck := .pass, failingField := 0, activity := .idle, siteCode := image.field 1 })).toKeepsCheck.portsSafe h)
  generalize State.handValues _ image = u at handed loaded
  unfold State.modeAfterPass; split
  · exact setMode_portsSafe _ nofun handed
  · exact (enterService_quiet u).toKeepsCheck.portsSafe (setMode_portsSafe _ (fun _ => loaded) handed)
  · exact handed

theorem checkFailed_portsSafe {s : State} (purpose : Purpose) (field : Nat) (h : s.PortsSafe) :
    (s.checkFailed purpose field).PortsSafe := by
  unfold State.checkFailed; dsimp only
  refine raise_portsSafe .pp _ ?_
  have noted := (withProf_quiet s (f := { s.prof with
    bad := true, lastCheck := .fail, failingField := field, activity := .idle })).toKeepsCheck.portsSafe h
  generalize s.withProf _ = u at noted
  unfold State.modeAfterFail; split
  · exact setMode_portsSafe _ nofun noted
  · exact (enterFaulted_quiet u).toKeepsCheck.portsSafe (setMode_portsSafe _ nofun noted)
  · exact noted

/-! ### Every step -/

theorem afterReset_portsSafe (working stored : Image) (lines : PerTrain Bool) (draws : Nat) (pending : List Instr) :
    (State.afterReset working stored lines draws pending).PortsSafe where
  framed p f hf := by cases p <;> cases hf
  none p _ := by cases p <;> rfl
  one p := by cases p <;> exact Nat.zero_le 1
  held := nofun
  applied := nofun
  loaded := nofun
  service := nofun
  oneCheck := nofun
  released := rfl

theorem takeLine_portsSafe (p : Port) (s : State) (e : LineEvent) (h : s.PortsSafe) : (s.takeLine p e).PortsSafe := by
  have assembler (a : Assembler) : (s.setAssembler p a).PortsSafe := portsSafe_setPort rfl rfl h
  have discard (a : Assembler) : (s.discard p a).PortsSafe := countError_portsSafe p (assembler a)
  unfold State.takeLine; split
  · unfold State.takeBreak; split
    · exact assembler _
    · exact discard _
  · exact h
  · exact discard _
  · exact discard _
  · split
    · exact h
    · exact discard _
  · split
    · exact assembler _
    · exact discard _
    · split
      · exact discard _
      · exact assembler _

theorem exec_portsSafe (c : Instr) {s t : State} (h : s.PortsSafe) (e : exec c s = .next t) : t.PortsSafe := by
  have request {p : Port} {act : State → State} (acts : ∀ u : State, Answering u p → (act u).PortsSafe) :
      (s.takeFrame p act).PortsSafe := takeFrame_portsSafe acts h
  cases c
  case powerOnReset => cases e; exact afterReset_portsSafe ..
  case pinReset =>
    cases e; split
    · exact afterReset_portsSafe ..
    · exact h
  case frameDiscard p line => cases e; exact foldl_keeps (takeLine_portsSafe p) line h
  case unknownKind p kind =>
    cases e; split
    · exact request fun u hu => hu.answer _ _
    · exact h
  case badLength p kind length =>
    cases e; split
    · refine request fun u hu => ?_
      have counted : Answering (u.countError p) p := by
        refine ⟨countError_portsSafe p hu.safe, ?_, ?_⟩
        · rw [port_countError]; exact Awaits.congr (x := u.port p) rfl rfl hu.awaits
        · rw [countError_eq]; exact hu.notHeld
      exact counted.respond _ _
    · exact h
  case responseSent p =>
    cases e; split
    · next sent => exact sent_portsSafe (Bool.and_eq_true_iff.mp sent).2 h
    · exact h
  case status p => cases e; exact request fun u hu => hu.respond _ _ ((length_statusFields u p).trans (by decide))
  case causes p =>
    cases e
    exact request fun u hu => portsSafe_setPort (s := u.respond p 0x02#8 .ok [(u.port p).causes]) rfl rfl (hu.respond _ _)
  case enables p mask =>
    cases e
    refine request fun u hu => Answering.respond (s := u.setPort p { u.port p with enables := mask &&& causeBits p })
      ⟨portsSafe_setPort rfl rfl hu.safe, ?_, hu.notHeld⟩ _ _
    rw [port_setPort]; exact Awaits.congr (x := u.port p) rfl rfl hu.awaits
  case clearLink p =>
    cases e
    exact request fun u hu => portsSafe_setPort rfl rfl (hu.respond _ _ (by simp))
  case meter report =>
    cases e
    refine request fun u hu => ?_
    split
    · exact (hu.keeps (workMeter_quiet u report).toKeepsCheck).respond _ _
    · exact hu.respond _ _
  case anchor pressure heat =>
    cases e
    refine request fun u hu => ?_
    split
    · exact (hu.keeps (takeAnchor_quiet u _ heat).toKeepsCheck).respond _ _
    · exact hu.respond _ _
  case declareAvailable =>
    cases e; split
    case isFalse => exact h
    refine request fun u hu => ?_
    split
    · exact hu.respond _ _
    · split
      · exact hu.respond _ _
      · split
        · exact (hu.keeps (declare_quiet u _ _).toKeepsCheck).respond _ _
        · exact hu.respond _ _
  case declareOffline =>
    cases e
    refine request fun u hu => ?_
    split
    · exact hu.respond _ _
    · split
      · exact (hu.keeps ((setTrain_quiet u _ _).trans (changeAvailability_quiet _)).toKeepsCheck).respond _ _
      · exact hu.respond _ _
  case release =>
    cases e
    refine request fun u hu => ?_
    split
    · exact hu.respond _ _
    · split
      · exact (hu.keeps ((setTrain_quiet u _ _).trans (tryRelease_quiet _ _)).toKeepsCheck).respond _ _
      · exact hu.respond _ _
  case trainRead =>
    cases e
    refine request fun u hu => ?_
    split <;> exact hu.respond _ _
  case profileRead =>
    cases e
    refine request fun u hu => ?_
    split
    · exact hu.respond _ _
    · split
      · exact hu.respond _ _
      · split <;> exact hu.respond _ _
  case profileWrite =>
    cases e
    refine request fun u hu => ?_
    split
    · exact hu.respond _ _
    · exact (hu.keeps (withProf_quiet u).toKeepsCheck).respond _ _
  case profileStore =>
    cases e
    refine request fun u hu => ?_
    split
    · exact hu.respond _ _
    · exact (hu.keeps (withProf_quiet u).toKeepsCheck).respond _ _
  case profileLoad =>
    cases e
    refine request fun u hu => ?_
    split
    · exact hu.respond _ _
    · exact (hu.keeps ((withProf_quiet u (f := { u.prof with working := u.prof.stored, bad := true })).trans
        (withProf_quiet _)).toKeepsCheck).respond _ _
  case profileCheck =>
    cases e
    refine request fun u hu => ?_
    split
    · exact hu.respond _ _
    · exact (hu.keeps (withProf_quiet u).toKeepsCheck).respond _ _
  case enterService =>
    cases e
    refine request fun u hu => ?_
    split
    · exact hu.respond _ _
    · exact (hu.keeps (withProf_quiet u).toKeepsCheck).respond _ _
  case profileStoreCompletion =>
    cases e; split
    · exact raise_portsSafe _ _ ((withProf_quiet s).toKeepsCheck.portsSafe h)
    · exact h
  case profileMemoryFault => cases e; exact (withProf_quiet s).toKeepsCheck.portsSafe h
  case profileCheckCompletion =>
    cases e; split
    · split
      · exact checkPassed_portsSafe _ _ h
      · exact checkFailed_portsSafe _ _ h
    · exact h
  case enterMaintenance =>
    cases e
    refine request fun u hu => ?_
    split
    · exact hu.respond _ _
    · exact hu.respond _ _
    · exact (setMode_answering .maintenance nofun hu).respond _ _
    · split
      · exact hu.respond _ _
      · exact ((setMode_answering .maintenance nofun hu).keeps (leaveService_quiet _).toKeepsCheck).respond _ _
  case clockSet interval millis =>
    cases e
    refine request fun u hu => ?_
    split
    · exact hu.respond _ _
    · exact (hu.keeps (((clockSet_keepsCheck u _ _).trans (openRecord_keepsCheck _ true)).trans
        (startPendingReview_quiet _).toKeepsCheck)).respond _ _
  case clockTrim =>
    cases e
    refine request fun u hu => ?_
    split
    · exact hu.respond _ _
    · split
      · exact hu.respond _ _
      · exact (hu.keeps (takeTrim_keepsCheck u _)).respond _ _
  case submit =>
    cases e
    refine request fun u hu => ?_
    split
    · exact hu.respond _ _
    · next candidate passed =>
      obtain ⟨service, set, free, -⟩ := preCheck_ok passed
      obtain ⟨held, answers⟩ := handOver_portsSafe set free service hu
      dsimp only; split
      · exact held
      · next notify => exact (answers (by rw [notify]; exact nofun)).respond _ _
  case withdraw =>
    cases e
    refine request fun u hu => ?_
    split
    · exact hu.respond _ _
    · split
      · exact hu.respond _ _
      · split
        · exact hu.respond _ _
        · exact (hu.keeps ((withBook_keepsCheck u _).trans (requestReview_quiet _).toKeepsCheck)).respond _ _
  case bookRead =>
    cases e
    refine request fun u hu => ?_
    split
    · exact hu.respond _ _
    · split <;> exact hu.respond _ _
  case position => cases e; exact request fun u hu => hu.respond _ _
  case recordRead =>
    cases e
    refine request fun u hu => ?_
    split
    · exact hu.respond _ _
    · split <;> exact hu.respond _ _
  case checkMode =>
    cases e
    refine request fun u hu => ?_
    split
    · exact hu.respond _ _
    · split
      · exact hu.respond _ _
      · next m _ free =>
        have none : ¬ (u.withPrj { u.prj with checkMode := m, defaultApplied := true }).inFlight.isSome = true := free
        refine Answering.respond (s := u.withPrj { u.prj with checkMode := m, defaultApplied := true })
          ⟨?_, hu.awaits, fun _ flight => absurd flight none⟩ _ _
        exact
          { framed := hu.safe.framed
            none := hu.safe.none
            one := hu.safe.one
            held := fun flight => absurd flight none
            applied := fun _ => rfl
            loaded := fun _ => rfl
            service := hu.safe.service
            oneCheck := hu.safe.oneCheck
            released := hu.safe.released }
  case abandon =>
    cases e
    refine request fun u hu => ?_
    split
    · next notify =>
      obtain ⟨dropped, ended, mode⟩ := dropCheck_answering notify hu
      exact reportEnd_portsSafe _ _ _ ended (fun hold => absurd (mode.symm.trans hold) nofun)
        (dropped.respond _ _)
    · exact hu.respond _ _
  case checkCompletion =>
    cases e; split
    · next running => exact completeCheck_portsSafe running h
    · exact h
  case reviewCompletion =>
    cases e; split
    · exact passOn_portsSafe ((setMarks_keepsCheck s _ _ _).portsSafe h)
    · exact h
  case activate =>
    cases e
    refine request fun u hu => ?_
    split
    · exact (hu.keeps (withRsv_keepsCheck u _)).respond _ _
    · exact hu.respond _ _
  case poll => cases e; exact request fun u hu => hu.respond _ _
  case tripFallingEdge =>
    cases e; split
    · exact (fallingEdge_quiet s _).toKeepsCheck.portsSafe h
    · exact h
  case tripRisingEdge =>
    cases e; split
    · exact h
    · exact (risingEdge_quiet s _).toKeepsCheck.portsSafe h
  all_goals exact portsSafe_keptByTime.exec (isTimeEvent_of_parts rfl) h e

/-- Settles O59: a request answers once, on a port that was free; only the end of a check answers later, and its response is the one still
owed. -/
theorem stepsKeepOneResponsePerFrame : Obligations.StepsKeepOneResponsePerFrame := fun s _ h e =>
  step_keeps (fun q h => KeepsCheck.portsSafe (s := s) (t := s.withPending q) (quiet_of_frame (withPending_frame s q)).toKeepsCheck h)
    (fun h => portsSafe_keptByTime.passMillisecond (sendNotice_portsSafe h)) (fun c _ h e => exec_portsSafe c h e) h e

end Sys2Proof.Proofs
end

section
/-! O60, first part: the operations of the blocks never set a timer at or behind the present count (`Timely`). The parameter `D` names the
events that must lie beyond the count; for the others it is enough that the count has not passed them. -/

namespace Sys2Proof.Proofs
open Sys2Proof Sys2Proof.Machine

/-! ### The invariant of the timers -/

/-- A due time is not passed, and where `strict` holds it is not reached. -/
def Due (now : Nat) (strict : Prop) (o : Option Nat) : Prop := ∀ due, o = some due → now ≤ due ∧ (strict → now < due)

theorem due_none (now : Nat) (p : Prop) : Due now p none := nofun

theorem due_later {now d : Nat} {p : Prop} (h : now < d) : Due now p (some d) :=
  fun _ e => Option.some.inj e ▸ ⟨h.le, fun _ => h⟩

/-- The timers and the start history of one train. -/
structure RecordTimely (D : Event → Prop) (now : Nat) (x : Train) (r : TrainRecord) : Prop where
  minDown : Due now (D (.minDown x)) r.minDown.expiry
  minRun : Due now (D (.minRun x)) r.minRun.expiry
  start : Due now (D (.start x)) r.start.expiry
  stop : Due now (D (.stop x)) r.stop.expiry
  cooldown : Due now (D (.cooldown x)) r.cooldown.expiry
  prune : Due now (D (.prune x)) (r.history.head?.map (· + startHistoryAge))
  rises : r.history.Pairwise (· ≤ ·)
  past : ∀ stamp ∈ r.history, stamp ≤ now

/-- `State.TimeSafe` without the interval clock: the phase is `ph`, and the events that `D` names are not due. -/
structure Timely (D : Event → Prop) (ph : Nat) (s : State) : Prop where
  settings : s.SettingsSafe
  absent : s.settings = none → ∀ x, (s.train x).state = .absent
  phase : s.tb.phase = ph
  opened : s.tb.tickOpen = true → ph = 0
  due : ∀ e, Due s.now (D e) (s.dueAt e)
  loss : 60 ∣ s.tb.nextLoss ∧ s.tb.nextLoss ≤ s.now + 60
  history : ∀ x, (s.train x).history.Pairwise (· ≤ ·) ∧ ∀ stamp ∈ (s.train x).history, stamp ≤ s.now
  lastMeter : s.inv.lastMeter ≤ s.now

variable {D : Event → Prop} {ph : Nat} {s t : State}

theorem Timely.record (h : Timely D ph s) (x : Train) : RecordTimely D s.now x (s.train x) :=
  ⟨h.due (.minDown x), h.due (.minRun x), h.due (.start x), h.due (.stop x), h.due (.cooldown x), h.due (.prune x), (h.history x).1,
    (h.history x).2⟩

theorem now_congr (h : t.tb.count = s.tb.count) : t.now = s.now := congrArg BitVec.toNat h

/-- What has to be known of a state to see that its timers are on time, where count, phase and settings stay. -/
theorem timely_of (h : Timely D ph s) (settings : t.settings = s.settings) (tb : t.tb = { s.tb with clock := t.tb.clock })
    (lastMeter : t.inv.lastMeter = s.inv.lastMeter) (metering : t.inv.metering = s.inv.metering)
    (records : ∀ x, RecordTimely D s.now x (t.train x) ∧ (s.settings = none → (t.train x).state = .absent))
    (permitHold : Due s.now (D .permitHold) t.trc.permitHold) (dwell : Due s.now (D .dwell) t.du.dwell)
    (linkLoss : Due s.now (D .linkLoss) t.rsv.linkTimer) (activationHold : Due s.now (D .activationHold) t.rsv.holdTimer)
    (background : Due s.now (D .background) t.prof.background) : Timely D ph t := by
  have now : t.now = s.now := now_congr (by rw [tb])
  have nextLoss : t.tb.nextLoss = s.tb.nextLoss := by rw [tb]
  have phase : t.tb.phase = s.tb.phase := by rw [tb]
  have stale : t.staleDue = s.staleDue := by unfold State.staleDue; rw [settings, metering, lastMeter, phase, now]
  refine
    { settings := settingsSafe_congr settings h.settings
      absent := fun none x => (records x).2 (settings ▸ none)
      phase := phase.trans h.phase
      opened := fun o => h.opened (by rw [tb] at o; exact o)
      due := ?_
      loss := by rw [nextLoss, now]; exact h.loss
      history := fun x => by rw [now]; exact ⟨(records x).1.rises, (records x).1.past⟩
      lastMeter := by rw [lastMeter, now]; exact h.lastMeter }
  intro e
  rw [now]
  cases e with
  | loss =>
    have := h.due .loss
    unfold State.dueAt at this ⊢
    rw [nextLoss]; exact this
  | stale => unfold State.dueAt; rw [stale]; exact h.due .stale
  | minDown x => exact (records x).1.minDown
  | minRun x => exact (records x).1.minRun
  | start x => exact (records x).1.start
  | stop x => exact (records x).1.stop
  | cooldown x => exact (records x).1.cooldown
  | prune x => exact (records x).1.prune
  | permitHold => exact permitHold
  | dwell => exact dwell
  | linkLoss => exact linkLoss
  | activationHold => exact activationHold
  | background => exact background

/-- Where the trains' records stay. -/
theorem timely_of_records (h : Timely D ph s) (settings : t.settings = s.settings) (tb : t.tb = { s.tb with clock := t.tb.clock })
    (lastMeter : t.inv.lastMeter = s.inv.lastMeter) (metering : t.inv.metering = s.inv.metering)
    (records : ∀ x, t.train x = s.train x) (permitHold : Due s.now (D .permitHold) t.trc.permitHold)
    (dwell : Due s.now (D .dwell) t.du.dwell) (linkLoss : Due s.now (D .linkLoss) t.rsv.linkTimer)
    (activationHold : Due s.now (D .activationHold) t.rsv.holdTimer) (background : Due s.now (D .background) t.prof.background) :
    Timely D ph t :=
  timely_of h settings tb lastMeter metering
    (fun x => by rw [records x]; exact ⟨h.record x, fun none => h.absent none x⟩) permitHold dwell linkLoss activationHold background

theorem timely_of_frame {l : List Part} (f : s.onlyChanges t l) (h : Timely D ph s)
    (parts : ∀ x ∈ l, x ∈ [Part.book, .prj, .slog, .pp, .tp, .gp, .resetHeld, .draws, .pending] := by decide) : Timely D ph t :=
  have inv := frame_inv f fun m => absurd (parts _ m) (by decide)
  have rsv := frame_rsv f fun m => absurd (parts _ m) (by decide)
  have trc := frame_trc f fun m => absurd (parts _ m) (by decide)
  have tb := frame_tb f fun m => absurd (parts _ m) (by decide)
  timely_of_records h (frame_settings f fun m => absurd (parts _ m) (by decide)) (by rw [tb]) (by rw [inv]) (by rw [inv])
    (fun x => by rw [train_congr trc]) (by rw [trc]; exact h.due .permitHold)
    (by rw [frame_du f fun m => absurd (parts _ m) (by decide)]; exact h.due .dwell) (by rw [rsv]; exact h.due .linkLoss)
    (by rw [rsv]; exact h.due .activationHold)
    (by rw [frame_prof f fun m => absurd (parts _ m) (by decide)]; exact h.due .background)

theorem withInv_timely {v : Inventory} (h : Timely D ph s) (lastMeter : v.lastMeter = s.inv.lastMeter := by rfl)
    (metering : v.metering = s.inv.metering := by rfl) : Timely D ph (s.withInv v) :=
  timely_of_records h rfl rfl lastMeter metering (fun _ => rfl) (h.due .permitHold) (h.due .dwell) (h.due .linkLoss)
    (h.due .activationHold) (h.due .background)

theorem withDu_timely {d : DispatchUnit} (h : Timely D ph s) (dwell : Due s.now (D .dwell) d.dwell) : Timely D ph (s.withDu d) :=
  timely_of_records h rfl rfl rfl rfl (fun _ => rfl) (h.due .permitHold) dwell (h.due .linkLoss)
    (h.due .activationHold) (h.due .background)

theorem withRsv_timely {r : Reserve} (h : Timely D ph s) (linkLoss : Due s.now (D .linkLoss) r.linkTimer)
    (activationHold : Due s.now (D .activationHold) r.holdTimer) : Timely D ph (s.withRsv r) :=
  timely_of_records h rfl rfl rfl rfl (fun _ => rfl) (h.due .permitHold) (h.due .dwell) linkLoss activationHold (h.due .background)

theorem withProf_timely {f : Profile} (h : Timely D ph s) (background : Due s.now (D .background) f.background) :
    Timely D ph (s.withProf f) :=
  timely_of_records h rfl rfl rfl rfl (fun _ => rfl) (h.due .permitHold) (h.due .dwell) (h.due .linkLoss)
    (h.due .activationHold) background

theorem withClock_timely {b : TimeBase} (h : Timely D ph s) (clock : b = { s.tb with clock := b.clock }) : Timely D ph (s.withTb b) :=
  timely_of_records h rfl clock rfl rfl (fun _ => rfl) (h.due .permitHold) (h.due .dwell) (h.due .linkLoss)
    (h.due .activationHold) (h.due .background)

theorem withPermitHold_timely {hold : Option Nat} (h : Timely D ph s) (due : Due s.now (D .permitHold) hold) :
    Timely D ph (s.withTrc { s.trc with permitHold := hold }) :=
  timely_of_records h rfl rfl rfl rfl (fun _ => rfl) due (h.due .dwell) (h.due .linkLoss) (h.due .activationHold) (h.due .background)

theorem raise_timely (p : Port) (c : Cause) (h : Timely D ph s) : Timely D ph (s.raise p c) :=
  timely_of_frame (raise_frame s p c) h (by cases p <;> decide)

theorem markRecord_timely (f : RecordFlags → RecordFlags) (h : Timely D ph s) : Timely D ph (s.markRecord f) :=
  timely_of_frame (markRecord_frame s f) h

theorem requestReview_timely (h : Timely D ph s) : Timely D ph s.requestReview := timely_of_frame (requestReview_frame s) h

theorem changeAvailability_timely (h : Timely D ph s) : Timely D ph s.changeAvailability :=
  requestReview_timely (raise_timely .tp .capacity (timely_of_records h rfl rfl rfl rfl (fun _ => rfl) (h.due .permitHold) (h.due .dwell)
    (h.due .linkLoss) (h.due .activationHold) (h.due .background)))

/-! ### Durations -/

theorem inRange_bounds {lo hi v : Nat} (h : inRange lo hi v = true) : lo ≤ v ∧ v ≤ hi := by
  unfold inRange at h
  simpa using h

/-- The durations of a train in force are positive (R158). -/
theorem durations_pos (h : s.SettingsSafe) (loaded : s.settings ≠ none) (x : Train) :
    0 < (s.trainCfg x).minRun ∧ 0 < (s.trainCfg x).minDown ∧ 0 < (s.trainCfg x).startTimeout ∧ 0 < (s.trainCfg x).stopTimeout ∧
    0 < (s.trainCfg x).cooldown := by
  obtain ⟨c, loaded⟩ := Option.ne_none_iff_exists'.mp loaded
  obtain ⟨image, passed, rfl⟩ := h c loaded
  have cfg : s.trainCfg x = TrainSettings.ofImage image x := by
    unfold State.trainCfg; rw [cfg_of_settings loaded]; exact PerTrain.get_of _ _
  have ok (offset : Nat) (le : offset ≤ 10) : fieldOk image (trainField x + offset) = true :=
    fieldOk_of_failingField_eq_none passed (by cases x <;> simp [trainField] <;> omega) (by cases x <;> simp [trainField, fieldCount] <;> omega)
  have minRun : inRange 60 7200 (image.field (trainField x + 3)) = true := by have := ok 3 (by omega); cases x <;> exact this
  have minDown : inRange 60 7200 (image.field (trainField x + 4)) = true := by have := ok 4 (by omega); cases x <;> exact this
  have start : inRange 30 1800 (image.field (trainField x + 5)) = true := by have := ok 5 (by omega); cases x <;> exact this
  have stop : inRange 30 1800 (image.field (trainField x + 6)) = true := by have := ok 6 (by omega); cases x <;> exact this
  have cooldown : inRange 60 14400 (image.field (trainField x + 7)) = true := by have := ok 7 (by omega); cases x <;> exact this
  rw [cfg]
  have := (inRange_bounds minRun).1
  have := (inRange_bounds minDown).1
  have := (inRange_bounds start).1
  have := (inRange_bounds stop).1
  have := (inRange_bounds cooldown).1
  unfold TrainSettings.ofImage
  dsimp only
  omega

/-- The interval length, the stale limit, the permit hold and the link timeout in force are positive (R158). -/
theorem limits_pos {c : Settings} (h : s.SettingsSafe) (loaded : s.settings = some c) :
    5 ≤ c.intervalLength ∧ 3 ≤ c.staleLimit ∧ 5 ≤ c.permitHold ∧ 2 ≤ c.linkTimeout := by
  obtain ⟨image, passed, rfl⟩ := h c loaded
  have ok (id : Nat) (lo : 1 ≤ id) (hi : id ≤ fieldCount) := fieldOk_of_failingField_eq_none passed lo hi
  have length : (decide (image.field 2 = 5) || decide (image.field 2 = 15) || decide (image.field 2 = 30) ||
    decide (image.field 2 = 60)) = true := ok 2 (by decide) (by decide)
  have stale : inRange 3 60 (image.field 152) = true := ok 152 (by decide) (by decide)
  have permit : inRange 5 300 (image.field 153) = true := ok 153 (by decide) (by decide)
  have link : inRange 2 60 (image.field 154) = true := ok 154 (by decide) (by decide)
  simp only [Bool.or_eq_true, decide_eq_true_eq] at length
  refine ⟨?_, (inRange_bounds stale).1, (inRange_bounds permit).1, (inRange_bounds link).1⟩
  show 5 ≤ image.field 2
  omega

/-! ### Trains -/

theorem settings_of_present (h : Timely D ph s) {x : Train} (present : (s.train x).state ≠ .absent) : s.settings ≠ none :=
  fun none => present (h.absent none x)

/-- A change of one train's record and of what hangs on it. -/
theorem timely_oneTrain (x : Train) (f : s.onlyChanges t trainParts) (h : Timely D ph s)
    (self : RecordTimely D s.now x (t.train x)) (absent : s.settings = none → (t.train x).state = .absent)
    (others : ∀ y, y ≠ x → t.train y = s.train y) (permitHold : t.trc.permitHold = s.trc.permitHold)
    (dwell : Due s.now (D .dwell) t.du.dwell) : Timely D ph t :=
  timely_of h (frame_settings f) (by rw [frame_tb f]) (by rw [frame_inv f]) (by rw [frame_inv f])
    (fun y => by
      by_cases same : y = x
      · exact same ▸ ⟨self, absent⟩
      · rw [others y same]; exact ⟨h.record y, fun none => h.absent none y⟩)
    (by rw [permitHold]; exact h.due .permitHold) dwell (by rw [frame_rsv f]; exact h.due .linkLoss)
    (by rw [frame_rsv f]; exact h.due .activationHold) (by rw [frame_prof f]; exact h.due .background)

theorem setTrain_timely (x : Train) {r : TrainRecord} (h : Timely D ph s) (self : RecordTimely D s.now x r)
    (absent : s.settings = none → r.state = .absent) : Timely D ph (s.setTrain x r) :=
  timely_oneTrain x (onlyChanges_mono (setTrain_frame s x r) (by decide)) h (by rw [train_setTrain_self]; exact self)
    (by rw [train_setTrain_self]; exact absent) (fun _ hy => train_setTrain_ne s r hy) rfl (h.due .dwell)

/-- A record whose state has been left: its timers have stopped, its history stays (R89, R91). -/
theorem leave_timely {now : Nat} {x : Train} {r : TrainRecord} (h : RecordTimely D now x r) : RecordTimely D now x r.leave :=
  ⟨due_none _ _, due_none _ _, due_none _ _, due_none _ _, due_none _ _, h.prune, h.rises, h.past⟩

/-- A new record of a present train. -/
theorem setTrain_present_timely {x : Train} {r : TrainRecord} (h : Timely D ph s) (present : (s.train x).state ≠ .absent)
    (self : RecordTimely D s.now x r) : Timely D ph (s.setTrain x r) :=
  setTrain_timely x h self fun none => absurd none (settings_of_present h present)

theorem trip_dwell (h : Timely D ph s) (x : Train) (reason : TripReason) : Due s.now (D .dwell) (s.trip x reason).du.dwell := by
  rw [trip_du]; split
  · next loads =>
    refine due_later ?_
    have : 0 < s.cfg.dwell := by simp only [Bool.and_eq_true, decide_eq_true_eq] at loads; tauto
    omega
  · exact h.due .dwell

theorem trip_timely {x : Train} (reason : TripReason) (present : (s.train x).state ≠ .absent) (h : Timely D ph s) :
    Timely D ph (s.trip x reason) := by
  have trips := trip_trips s x reason
  have left := leave_timely (h.record x)
  refine timely_oneTrain x (trip_frame s x reason) h ?_ (fun none => absurd none (settings_of_present h present)) trips.others
    trips.permitHold (trip_dwell h x reason)
  rw [train_trip_self]
  exact ⟨left.minDown, left.minRun, left.start, left.stop, left.cooldown, left.prune, left.rises, left.past⟩

theorem present_of_active {r : TrainRecord} (active : r.state.active = true) : r.state ≠ .absent :=
  fun absent => by rw [absent] at active; cases active

theorem tripActive_timely (reason : TripReason) (h : Timely D ph s) : Timely D ph (s.tripActive reason) :=
  foldl_keeps (fun u x hu => by
    unfold State.tripIfActive; split
    · next active => exact trip_timely reason (present_of_active active) hu
    · exact hu) _ h

theorem tryRelease_timely (x : Train) (h : Timely D ph s) : Timely D ph (s.tryRelease x) := by
  unfold State.tryRelease; dsimp only; split
  · next ready =>
    have left := leave_timely (h.record x)
    exact changeAvailability_timely (setTrain_present_timely h (by rw [locked_of_releasable ready]; decide)
      ⟨due_none _ _, left.minRun, left.start, left.stop, left.cooldown, left.prune, left.rises, left.past⟩)
  · exact h

theorem leftActive_timely (k : Kind) (h : Timely D ph s) : Timely D ph (s.leftActive k) := by
  unfold State.leftActive; split
  · next loads =>
    have : 0 < s.cfg.dwell := of_decide_eq_true (Bool.and_eq_true_iff.mp loads).1
    exact withDu_timely h (due_later (by omega))
  · exact h

theorem setSetpoint_timely (x : Train) (kw : Nat) (h : Timely D ph s) : Timely D ph (s.setSetpoint x kw) :=
  withDu_timely h (h.due .dwell)

theorem completeStart_timely {x : Train} (starting : (s.train x).state = .starting) (h : Timely D ph s) :
    Timely D ph (s.completeStart x) := by
  have left := leave_timely (h.record x)
  have present : (s.train x).state ≠ .absent := by rw [starting]; decide
  have pos := (durations_pos h.settings (settings_of_present h present) x).1
  exact setSetpoint_timely x _ (setTrain_present_timely h present
    ⟨left.minDown, due_later (by omega), left.start, left.stop, left.cooldown, left.prune, left.rises, left.past⟩)

theorem completeStop_timely {x : Train} (stopping : (s.train x).state = .stopping) (h : Timely D ph s) :
    Timely D ph (s.completeStop x) := by
  have left := leave_timely (h.record x)
  have present : (s.train x).state ≠ .absent := by rw [stopping]; decide
  have pos := (durations_pos h.settings (settings_of_present h present) x).2.1
  exact leftActive_timely _ (setTrain_present_timely h present
    ⟨due_later (by omega), left.minRun, left.start, left.stop, left.cooldown, left.prune, left.rises, left.past⟩)

theorem lock_timely {x : Train} (tripped : (s.train x).state = .tripped) (h : Timely D ph s) : Timely D ph (s.lock x) := by
  have left := leave_timely (h.record x)
  have present : (s.train x).state ≠ .absent := by rw [tripped]; decide
  have pos := (durations_pos h.settings (settings_of_present h present) x).2.2.2.2
  exact setTrain_present_timely h present
    ⟨left.minDown, left.minRun, left.start, left.stop, due_later (by omega), left.prune, left.rises, left.past⟩

theorem applyReport_timely (x : Train) (report : Reported) (h : Timely D ph s) : Timely D ph (s.applyReport x report) := by
  unfold State.applyReport; split
  case h_4 state => exact lock_timely state h
  case h_11 state => exact completeStart_timely state h
  case h_19 state => exact completeStop_timely state h
  case h_1 | h_2 | h_3 | h_5 | h_6 | h_9 | h_10 | h_14 | h_17 | h_18 => exact h
  case h_7 state | h_12 state | h_13 state | h_15 state | h_20 state | h_21 state =>
    exact trip_timely _ (by rw [state]; decide) h
  case h_8 state _ _ | h_16 state _ _ => exact trip_timely _ (by rw [state]; decide) h

theorem takeReport_timely (report : MeterReport) (x : Train) (h : Timely D ph s) : Timely D ph (State.takeReport report s x) := by
  have record := h.record x
  unfold State.takeReport; dsimp only; split
  · exact h
  · exact h
  · next _ _ present =>
    exact applyReport_timely x _ (setTrain_present_timely h present
      ⟨record.minDown, record.minRun, record.start, record.stop, record.cooldown, record.prune, record.rises, record.past⟩)

theorem applyInstalled_timely (x : Train) (h : Timely D ph s) : Timely D ph (s.applyInstalled x) := by
  have record := h.record x
  unfold State.applyInstalled; split
  · next installed =>
    split
    · refine setTrain_timely x h
        ⟨record.minDown, record.minRun, record.start, record.stop, record.cooldown, record.prune, record.rises, record.past⟩ fun none => ?_
      unfold State.trainCfg State.cfg at installed
      rw [none] at installed
      cases x <;> cases installed
    · exact h
  · have gone := setSetpoint_timely x 0 (setTrain_timely x
      (r := { TrainRecord.afterReset (s.train x).lineHigh with sensitivity := (s.train x).sensitivity }) h
      ⟨due_none _ _, due_none _ _, due_none _ _, due_none _ _, due_none _ _, due_none _ _, List.Pairwise.nil, nofun⟩ fun _ => rfl)
    unfold State.makeAbsent; dsimp only; split
    · exact gone
    · exact changeAvailability_timely gone

theorem declare_timely {x : Train} (starts : Nat) (offline : (s.train x).state = .offline) (h : Timely D ph s) :
    Timely D ph (s.declare x starts) := by
  have left := leave_timely (h.record x)
  have present : (s.train x).state ≠ .absent := by rw [offline]; decide
  have pos := (durations_pos h.settings (settings_of_present h present) x).2.1
  refine changeAvailability_timely (setTrain_present_timely h present
    ⟨due_later (by omega), left.minRun, left.start, left.stop, left.cooldown, ?_, ?_, ?_⟩)
  · dsimp only
    cases min starts (s.trainCfg x).startsPerDay with
    | zero => exact due_none _ _
    | succ n => exact due_later (show s.now < s.now + 86400 by omega)
  · exact List.pairwise_replicate.mpr (.inr le_rfl)
  · intro stamp hs
    rw [(List.mem_replicate.mp hs).2]

theorem startTrain_timely (x : Train) (h : Timely D ph s) : Timely D ph (s.startTrain x) := by
  unfold State.startTrain; dsimp only; split
  · next may =>
    have left := leave_timely (h.record x)
    have record := h.record x
    have present : (s.train x).state ≠ .absent := by
      unfold State.mayStart State.startable at may
      simp only [Bool.and_eq_true, decide_eq_true_eq] at may
      rw [may.1.1.2.1.1]; decide
    have pos := (durations_pos h.settings (settings_of_present h present) x).2.2.1
    refine setTrain_present_timely h present
      ⟨left.minDown, left.minRun, due_later (by omega), left.stop, left.cooldown, ?_, ?_, ?_⟩
    · dsimp only
      have prune := record.prune
      cases hist : (s.train x).history with
      | nil => exact due_later (show s.now < s.now + 86400 by omega)
      | cons stamp rest => rw [hist] at prune; exact prune
    · exact List.pairwise_append.mpr ⟨record.rises, List.pairwise_singleton _ _, fun a ha b hb => by
        rw [List.mem_singleton.mp hb]; exact record.past a ha⟩
    · intro stamp hs
      rcases List.mem_append.mp hs with old | new
      · exact record.past stamp old
      · rw [List.mem_singleton.mp new]
  · exact h

theorem stopTrain_timely (x : Train) (h : Timely D ph s) : Timely D ph (s.stopTrain x) := by
  unfold State.stopTrain; split
  · next may =>
    have left := leave_timely (h.record x)
    have present : (s.train x).state ≠ .absent := by
      unfold State.mayStop at may
      simp only [Bool.and_eq_true, decide_eq_true_eq] at may
      rw [may.1.2]; decide
    have pos := (durations_pos h.settings (settings_of_present h present) x).2.2.2.1
    exact setSetpoint_timely x 0 (setTrain_present_timely h present
      ⟨left.minDown, left.minRun, left.start, due_later (by omega), left.cooldown, left.prune, left.rises, left.past⟩)
  · exact h

theorem setTrain_same_timely (x : Train) {r : TrainRecord} (h : Timely D ph s) (state : r.state = (s.train x).state)
    (self : RecordTimely D s.now x r) : Timely D ph (s.setTrain x r) :=
  setTrain_timely x h self fun none => state.trans (h.absent none x)

theorem fallingEdge_timely (x : Train) (h : Timely D ph s) : Timely D ph (s.fallingEdge x) := by
  have record := h.record x
  have noted : Timely D ph (s.setTrain x (atLevel (s.train x) false)) := setTrain_same_timely x h rfl
    ⟨record.minDown, record.minRun, record.start, record.stop, record.cooldown, record.prune, record.rises, record.past⟩
  rw [fallingEdge_eq]; split
  · next live =>
    refine trip_timely _ ?_ noted
    rw [train_setTrain_self]
    rcases live with stopped | active
    · exact fun absent => absurd (stopped.symm.trans absent) (by decide)
    · exact present_of_active active
  · split
    · next locked =>
      have present : (s.train x).state ≠ .absent := by rw [locked]; decide
      have pos := (durations_pos h.settings (settings_of_present h present) x).2.2.2.2
      exact setTrain_present_timely h present
        ⟨record.minDown, record.minRun, record.start, record.stop, due_later (by omega), record.prune, record.rises, record.past⟩
    · exact noted

theorem risingEdge_timely (x : Train) (h : Timely D ph s) : Timely D ph (s.risingEdge x) := by
  have record := h.record x
  have noted : Timely D ph (s.setTrain x { s.train x with lineHigh := true }) := setTrain_same_timely x h rfl
    ⟨record.minDown, record.minRun, record.start, record.stop, record.cooldown, record.prune, record.rises, record.past⟩
  unfold State.risingEdge; dsimp only; split
  · exact tryRelease_timely x noted
  · exact noted

end Sys2Proof.Proofs
end

section
/-! O60, second part: the METER, the ticks, the events and the boundary keep the timers; once the events of an instant have been taken none
is due. -/

namespace Sys2Proof.Proofs
open Sys2Proof Sys2Proof.Machine

variable {D : Event → Prop} {ph : Nat} {s t : State}

/-! ### Metering -/

/-- The account moves; its status, its epoch, its drift count and the metering stay. -/
structure SameMetering (v w : Inventory) : Prop where
  status : w.status = v.status
  metering : w.metering = v.metering
  drift : w.drift = v.drift
  epoch : w.epoch = v.epoch
  lastMeter : w.lastMeter = v.lastMeter

/-- What the totalisers of a METER keep (R4 to R8). -/
structure KeptByTotalisers (I : State → Prop) : Prop where
  inv : ∀ {s : State} {v : Inventory}, SameMetering s.inv v → I s → I (s.withInv v)
  clamp : ∀ {s : State} (f : RecordFlags → RecordFlags), I s → I (s.clampEvent f)

namespace KeptByTotalisers
variable {I : State → Prop} (k : KeptByTotalisers I)
include k

theorem applyMass (x : Train) (d : Nat) (h : I s) : I (s.applyMass x d) := by
  unfold State.applyMass; dsimp only; split
  · have moved : I (s.withInv { s.inv with mass := saturate (decide (x.kind = .compressor)) s.cfg.lastMass s.inv.mass d }) :=
      k.inv ⟨rfl, rfl, rfl, rfl, rfl⟩ h
    split
    · exact k.clamp _ moved
    · exact moved
  · exact h

theorem applyHeat (tier : Tier) (increase : Bool) (d : Nat) (h : I s) : I (s.applyHeat tier increase d) := by
  unfold State.applyHeat; dsimp only; split
  · have moved : I (s.withInv { s.inv with
        heat := s.inv.heat.set tier (saturate increase (s.cfg.tiers.get tier).capacity (s.inv.heat.get tier) d) }) :=
      k.inv ⟨rfl, rfl, rfl, rfl, rfl⟩ h
    split
    · exact k.clamp _ moved
    · exact moved
  · exact h

theorem workMass (elapsed : Nat) (report : MeterReport) (s : State) (x : Train) (h : I s) : I (State.workMass elapsed report s x) := by
  unfold State.workMass; dsimp only; split
  · have based : I (s.withInv { s.inv with massBase := s.inv.massBase.set x (some (report.trains.get x).mass) }) :=
      k.inv ⟨rfl, rfl, rfl, rfl, rfl⟩ h
    split
    · exact based
    · split
      · exact k.applyMass x _ based
      · exact k.clamp _ based
  · exact h

theorem workHeat (elapsed : Nat) (tier : Tier) (increase : Bool) (base : Option Word) (value : Word) (h : I s) :
    I (s.workHeat elapsed tier increase base value) := by
  unfold State.workHeat; split
  · exact h
  · split
    · exact k.applyHeat tier increase _ h
    · exact k.clamp _ h

theorem workTier (elapsed : Nat) (report : MeterReport) (s : State) (tier : Tier) (h : I s) : I (State.workTier elapsed report s tier) := by
  unfold State.workTier; dsimp only
  have first := k.workHeat elapsed tier true (s.inv.heatInBase.get tier) (report.tiers.get tier).heatIn
    (k.inv (v := { s.inv with heatInBase := s.inv.heatInBase.set tier (some (report.tiers.get tier).heatIn) }) ⟨rfl, rfl, rfl, rfl, rfl⟩ h)
  exact k.workHeat elapsed tier false _ _ (k.inv ⟨rfl, rfl, rfl, rfl, rfl⟩ first)

theorem workTotalisers (report : MeterReport) (h : I s) : I (s.workTotalisers report) :=
  foldl_keeps (k.workTier s.elapsed report) _ (foldl_keeps (k.workMass s.elapsed report) _ h)

end KeptByTotalisers

theorem timely_keptByTotalisers (D : Event → Prop) (ph : Nat) : KeptByTotalisers (Timely D ph) where
  inv same h := withInv_timely h same.lastMeter same.metering
  clamp f h := markRecord_timely f (raise_timely .pp .clamp h)

theorem driftTest_timely (pressure : Nat) (h : Timely D ph s) : Timely D ph (s.driftTest pressure) := by
  unfold State.driftTest; dsimp only; split
  · have counted : Timely D ph (s.withInv { s.inv with drift := s.nextDrift pressure }) := withInv_timely h
    split
    · exact requestReview_timely (raise_timely .tp .inventory (raise_timely .pp .drift (withInv_timely counted)))
    · exact counted
  · exact h

/-- Taking a METER makes the count the last METER time: the stale test then lies ahead (R17, R19). -/
theorem withLastMeter_timely {v : Inventory} (h : Timely D ph s) (lastMeter : v.lastMeter = s.now) : Timely D ph (s.withInv v) := by
  have due (e : Event) (other : e ≠ .stale) : Due s.now (D e) ((s.withInv v).dueAt e) := by
    cases e with
    | stale => exact absurd rfl other
    | _ => exact h.due _
  refine
    { settings := settingsSafe_congr (s := s) rfl h.settings, absent := h.absent, phase := h.phase, opened := h.opened
      due := fun e => ?_, loss := h.loss, history := h.history, lastMeter := lastMeter.le }
  by_cases stale : e = .stale
  · subst stale
    intro d hd
    show s.now ≤ d ∧ (D .stale → s.now < d)
    have hd : (s.withInv v).staleDue = some d := hd
    unfold State.staleDue at hd
    cases loaded : s.settings with
    | none => rw [State.withInv_settings, loaded] at hd; cases hd
    | some c =>
      have limit := (limits_pos h.settings loaded).2.1
      rw [State.withInv_settings, loaded] at hd
      dsimp only at hd
      split at hd
      · have hd := Option.some.inj hd
        rw [State.withInv_inv, lastMeter] at hd
        omega
      · cases hd
  · exact due e stale

theorem recover_timely (h : Timely D ph s) (lastMeter : s.inv.lastMeter = s.now) : Timely D ph s.recover := by
  unfold State.recover; split
  · exact raise_timely .tp .inventory (withPermitHold_timely (withLastMeter_timely h lastMeter) (due_none _ _))
  · exact h

theorem workMeter_timely (report : MeterReport) (h : Timely D ph s) : Timely D ph (s.workMeter report) := by
  have worked := driftTest_timely report.pressure.toNat ((timely_keptByTotalisers D ph).workTotalisers report h)
  unfold State.workMeter; dsimp only
  generalize (s.workTotalisers report).driftTest report.pressure.toNat = u at worked
  have noted : Timely D ph (u.withInv { u.inv with lastMeter := u.now }) := withLastMeter_timely worked rfl
  have reported : Timely D ph ((u.withInv { u.inv with lastMeter := u.now }).takeReports report) :=
    foldl_keeps (fun _ x hu => takeReport_timely report x hu) _ noted
  have f := takeReports_frame (u.withInv { u.inv with lastMeter := u.now }) report
  generalize (u.withInv _).takeReports report = v at reported f
  have lastMeter : v.inv.lastMeter = v.now := by rw [frame_inv f, now_congr (congrArg _ (frame_tb f))]; rfl
  exact recover_timely (withDu_timely reported (reported.due .dwell)) lastMeter

theorem takeAnchor_timely (pressure : Nat) (heat : PerTier Word) (h : Timely D ph s) : Timely D ph (s.takeAnchor pressure heat) := by
  have set : Timely D ph (s.anchored pressure heat) := withInv_timely h
  unfold State.takeAnchor; dsimp only
  refine requestReview_timely (raise_timely .tp .inventory ?_)
  split
  · exact raise_timely .pp .clamp set
  · exact set

/-! ### The parts of a tick -/

theorem allocate_timely (k : Kind) (h : Timely D ph s) : Timely D ph (s.allocate k) := by
  unfold State.allocate State.decideStart State.decideStop; dsimp only
  repeat' split
  all_goals first
    | exact h
    | exact startTrain_timely _ h
    | exact stopTrain_timely _ h

theorem applyClamps_timely (h : Timely D ph s) : Timely D ph s.applyClamps := by
  have clamped := withDu_timely (d := { s.du with
    clamped := s.rateClamp (s.inventoryClamp (s.capabilityClamp s.requested))
    headroomUp := s.dischargeLimit - s.rateClamp (s.inventoryClamp (s.capabilityClamp s.requested))
    headroomDown := s.rateClamp (s.inventoryClamp (s.capabilityClamp s.requested)) + s.chargeLimit
    derateReported := decide (s.rateClamp (s.inventoryClamp (s.capabilityClamp s.requested)) ≠ s.requested) &&
      decide (s.rsv.granted ≠ 0) }) h (h.due .dwell)
  unfold State.applyClamps; dsimp only
  split <;> split
  · exact raise_timely .gp .derated (markRecord_timely _ clamped)
  · exact raise_timely .gp .derated clamped
  · exact markRecord_timely _ clamped
  · exact clamped

theorem computeTarget_timely (h : Timely D ph s) : Timely D ph s.computeTarget := by
  have clamped := applyClamps_timely h
  have formed : Timely D ph s.applyClamps.formWorking := withDu_timely clamped (clamped.due .dwell)
  have allocated := allocate_timely .turbine (allocate_timely .compressor formed)
  unfold State.computeTarget
  generalize (s.applyClamps.formWorking.allocate .compressor).allocate .turbine = u at allocated
  have target : Timely D ph u.formTarget := withDu_timely allocated (allocated.due .dwell)
  have shared : Timely D ph (u.formTarget.withDu { u.formTarget.du with setpoint := PerTrain.of u.formTarget.setpointFor }) :=
    withDu_timely target (target.due .dwell)
  unfold State.setSetpoints; dsimp only; split
  · exact markRecord_timely _ shared
  · exact shared

theorem tickParts_timely (h : Timely D ph s) : Timely D ph s.tickParts := by
  have rested : Timely D ph s.expireDwell := by
    unfold State.expireDwell; split
    · exact h
    · split
      · exact withDu_timely h (due_none _ _)
      · exact h
  have dispatched : Timely D ph s.dispatchPart := by
    unfold State.dispatchPart; dsimp only; split
    · split
      · exact computeTarget_timely rested
      · exact rested
    · exact withDu_timely rested (rested.due .dwell)
  exact timely_of_frame (settlementPart_frame _) dispatched

/-! ### Events -/

theorem due_of_isDue {e : Event} (h : s.isDue e = true) : ∃ due, s.dueAt e = some due ∧ due ≤ s.now := by
  unfold State.isDue at h
  split at h
  · cases h
  · next due hd => exact ⟨due, hd, of_decide_eq_true h⟩

theorem isDue_false_iff {e : Event} : s.isDue e = false ↔ ∀ due, s.dueAt e = some due → s.now < due := by
  unfold State.isDue
  cases s.dueAt e <;> simp

theorem takeLosses_timely (due : s.isDue .loss = true) (h : Timely D ph s) : Timely D ph s.takeLosses := by
  obtain ⟨d, hd, le⟩ := due_of_isDue due
  obtain rfl := Option.some.inj hd
  have ge := (h.due .loss s.tb.nextLoss rfl).1
  have moved : Timely D ph (s.withTb { s.tb with nextLoss := s.tb.nextLoss + 60 }) := by
    refine
      { settings := settingsSafe_congr (s := s) rfl h.settings, absent := h.absent, phase := h.phase, opened := h.opened
        due := fun e => ?_, loss := ⟨(Nat.dvd_add_right h.loss.1).mpr (dvd_refl 60), by show s.tb.nextLoss + 60 ≤ s.now + 60; omega⟩
        history := h.history, lastMeter := h.lastMeter }
    cases e with
    | loss => exact due_later (show s.now < s.tb.nextLoss + 60 by omega)
    | _ => exact h.due _
  unfold State.takeLosses State.applyLosses
  split
  · exact withInv_timely moved
  · exact moved

theorem becomeStale_timely (due : s.isDue .stale = true) (h : Timely D ph s) : Timely D ph s.becomeStale := by
  obtain ⟨d, hd, -⟩ := due_of_isDue due
  have pos : 0 < s.cfg.permitHold := by
    have hd : s.staleDue = some d := hd
    unfold State.staleDue at hd
    cases loaded : s.settings with
    | none => rw [loaded] at hd; cases hd
    | some c =>
      have := (limits_pos h.settings loaded).2.2.1
      rw [cfg_of_settings loaded]; omega
  have stale : Timely D ph (s.withInv { s.inv with metering := .stale }) := by
    refine
      { settings := settingsSafe_congr (s := s) rfl h.settings, absent := h.absent, phase := h.phase, opened := h.opened
        due := fun e => ?_, loss := h.loss, history := h.history, lastMeter := h.lastMeter }
    cases e with
    | stale =>
      have none : (s.withInv { s.inv with metering := .stale }).staleDue = none := by
        unfold State.staleDue; split
        · rfl
        · rfl
      unfold State.dueAt
      rw [none]; exact due_none _ _
    | _ => exact h.due _
  exact markRecord_timely _ (raise_timely .tp .inventory (withPermitHold_timely stale (due_later (by show s.now < s.now + _; omega))))

theorem loseLink_timely (h : Timely D ph s) : Timely D ph s.loseLink := by
  unfold State.loseLink; dsimp only
  refine markRecord_timely _ (raise_timely .tp .gridLost (raise_timely .pp .gridLost (withRsv_timely h (due_none _ _) ?_)))
  split
  · exact due_later (by omega)
  · exact due_none _ _

theorem takeBackground_timely (h : Timely D ph s) : Timely D ph s.takeBackground := by
  have later : Due s.now (D .background) (some (s.now + backgroundPeriod)) := due_later (show s.now < s.now + 3600 by omega)
  unfold State.takeBackground; dsimp only; split
  · have loaded := withProf_timely (f := { s.prof with background := some (s.now + backgroundPeriod) }) h later
    split
    · exact loaded
    · exact withProf_timely loaded later
  · exact withProf_timely h (due_none _ _)

theorem head_of_dropWhile {α : Type} {p : α → Bool} {a : α} : ∀ {l : List α}, (l.dropWhile p).head? = some a → p a = false
  | [], h => by cases h
  | b :: l, h => by
    rw [List.dropWhile_cons] at h
    split at h
    · exact head_of_dropWhile h
    · next not => exact Option.some.inj h ▸ Bool.eq_false_iff.mpr not

theorem permitHoldRanOut_timely (h : Timely D ph s) : Timely D ph s.permitHoldRanOut := by
  have stopped : Timely D ph (s.withTrc { s.trc with permitHold := none }) := withPermitHold_timely h (due_none _ _)
  unfold State.permitHoldRanOut
  exact tripActive_timely .link stopped

/-- The start that a pruned history begins with leaves it later (R91). -/
theorem pruned_later {l : List Nat} {now d : Nat}
    (h : (l.dropWhile fun stamp => decide (startHistoryAge ≤ now - stamp)).head?.map (· + startHistoryAge) = some d) : now < d := by
  obtain ⟨stamp, first, rfl⟩ := Option.map_eq_some_iff.mp h
  have young := head_of_dropWhile (p := fun stamp => decide (startHistoryAge ≤ now - stamp)) first
  have young : ¬ startHistoryAge ≤ now - stamp := of_decide_eq_false young
  show now < stamp + startHistoryAge
  omega

theorem fire_timely {e : Event} (due : s.isDue e = true) (h : Timely D ph s) : Timely D ph (s.fire e) := by
  cases e with
  | loss => exact takeLosses_timely due h
  | stale => exact becomeStale_timely due h
  | minDown x =>
    have r := h.record x
    exact setTrain_same_timely x h rfl ⟨due_none _ _, r.minRun, r.start, r.stop, r.cooldown, r.prune, r.rises, r.past⟩
  | minRun x =>
    have r := h.record x
    exact setTrain_same_timely x h rfl ⟨r.minDown, due_none _ _, r.start, r.stop, r.cooldown, r.prune, r.rises, r.past⟩
  | start x =>
    have r := h.record x
    show Timely D ph (s.startRanOut x)
    unfold State.startRanOut; split
    · next state => exact trip_timely _ (by rw [state]; decide) h
    · exact setTrain_same_timely x h rfl ⟨r.minDown, r.minRun, due_none _ _, r.stop, r.cooldown, r.prune, r.rises, r.past⟩
  | stop x =>
    have r := h.record x
    show Timely D ph (s.stopRanOut x)
    unfold State.stopRanOut; split
    · next state => exact trip_timely _ (by rw [state]; decide) h
    · exact setTrain_same_timely x h rfl ⟨r.minDown, r.minRun, r.start, due_none _ _, r.cooldown, r.prune, r.rises, r.past⟩
  | cooldown x =>
    have r := h.record x
    exact tryRelease_timely x (raise_timely .pp .releaseReady (setTrain_same_timely x h rfl
      ⟨r.minDown, r.minRun, r.start, r.stop, due_none _ _, r.prune, r.rises, r.past⟩))
  | prune x =>
    have r := h.record x
    have sub : ((s.train x).history.dropWhile fun stamp => decide (startHistoryAge ≤ s.now - stamp)).Sublist (s.train x).history :=
      List.dropWhile_sublist _
    exact setTrain_same_timely x h rfl
      ⟨r.minDown, r.minRun, r.start, r.stop, r.cooldown, fun d hd => ⟨(pruned_later hd).le, fun _ => pruned_later hd⟩,
        r.rises.sublist sub, fun stamp hs => r.past stamp (sub.subset hs)⟩
  | permitHold => exact permitHoldRanOut_timely h
  | dwell => exact withDu_timely h (due_none _ _)
  | linkLoss => exact loseLink_timely h
  | activationHold => exact withRsv_timely h (h.due .linkLoss) (due_none _ _)
  | background => exact takeBackground_timely h

/-- A trip leaves the permit hold as it is (R104). -/
theorem tripActive_permitHold (s : State) (reason : TripReason) : (s.tripActive reason).trc.permitHold = s.trc.permitHold :=
  foldl_keeps (I := fun u => u.trc.permitHold = s.trc.permitHold) (fun u x hu => by
    unfold State.tripIfActive; split
    · exact (trip_trips u x reason).permitHold.trans hu
    · exact hu) _ rfl

theorem train_tryRelease (s : State) (x : Train) :
    (s.tryRelease x).train x =
      if (s.train x).releasable then
        { (s.train x).leave with state := .stopped, minDown := .ranOut, releaseTaken := false, reason := none }
      else s.train x := by
  unfold State.tryRelease; dsimp only; split
  · rw [train_changeAvailability, train_setTrain_self]
  · rfl

theorem takeLosses_tb (s : State) : s.takeLosses.tb = { s.tb with nextLoss := s.tb.nextLoss + 60 } :=
  frame_tb (applyLosses_frame (s.withTb { s.tb with nextLoss := s.tb.nextLoss + 60 }))

/-- Of the time base, an event moves the second of the next loss tick at most. -/
theorem fire_tb {e : Event} (h : e ≠ .loss) : (s.fire e).tb = s.tb := by
  have f := fire_frame s e
  cases e with
  | loss => exact absurd rfl h
  | _ => dsimp only [Event.parts] at f; exact frame_tb f

theorem fire_now (s : State) (e : Event) : (s.fire e).now = s.now := by
  by_cases loss : e = .loss
  · subst loss
    have tb : (s.fire .loss).tb = { s.tb with nextLoss := s.tb.nextLoss + 60 } := takeLosses_tb s
    exact now_congr (by rw [tb])
  · exact now_congr (congrArg TimeBase.count (fire_tb loss))

theorem loseLink_linkTimer (s : State) : s.loseLink.rsv.linkTimer = none := by
  unfold State.loseLink; dsimp only
  rw [frame_rsv (markRecord_frame _ _)]
  rfl

/-- An event that has been taken is not due again at its count (R38, R89). -/
theorem fire_later {e : Event} (due : s.isDue e = true) (h : Timely D ph s) : (s.fire e).isDue e = false := by
  refine isDue_false_iff.mpr fun d hd => ?_
  rw [fire_now]
  cases e with
  | loss =>
    obtain ⟨d', hd', -⟩ := due_of_isDue due
    have ge := (h.due .loss d' hd').1
    obtain rfl := Option.some.inj hd'
    have hd : some s.takeLosses.tb.nextLoss = some d := hd
    rw [takeLosses_tb] at hd
    have hd : s.tb.nextLoss + 60 = d := Option.some.inj hd
    omega
  | stale =>
    have f := markRecord_frame (((s.withInv { s.inv with metering := .stale }).withTrc
      { s.trc with permitHold := some (s.now + s.cfg.permitHold) }).raise .tp .inventory) .setStale
    have stale : s.becomeStale.inv.metering = .stale := by
      unfold State.becomeStale; rw [frame_inv f]; rfl
    have hd : s.becomeStale.staleDue = some d := hd
    unfold State.staleDue at hd
    rw [stale] at hd
    split at hd
    · cases hd
    · cases hd
  | minDown x => rw [State.dueAt, State.fire, State.minDownRanOut, train_setTrain_self] at hd; cases hd
  | minRun x => rw [State.dueAt, State.fire, State.minRunRanOut, train_setTrain_self] at hd; cases hd
  | start x =>
    rw [State.dueAt, State.fire, State.startRanOut] at hd
    split at hd
    · rw [train_trip_self] at hd; cases hd
    · rw [train_setTrain_self] at hd; cases hd
  | stop x =>
    rw [State.dueAt, State.fire, State.stopRanOut] at hd
    split at hd
    · rw [train_trip_self] at hd; cases hd
    · rw [train_setTrain_self] at hd; cases hd
  | cooldown x =>
    rw [State.dueAt, State.fire, State.cooldownRanOut, train_tryRelease] at hd
    split at hd
    · cases hd
    · have self : ((s.setTrain x { s.train x with cooldown := .ranOut }).raise .pp .releaseReady).train x =
          { s.train x with cooldown := .ranOut } := train_setTrain_self s x _
      rw [self] at hd; cases hd
  | prune x =>
    rw [State.dueAt, State.fire, State.pruneHistory, train_setTrain_self] at hd
    exact pruned_later hd
  | permitHold =>
    have none : s.permitHoldRanOut.trc.permitHold = none := tripActive_permitHold _ _
    have hd : s.permitHoldRanOut.trc.permitHold = some d := hd
    rw [none] at hd; cases hd
  | dwell => cases hd
  | linkLoss => exact absurd ((loseLink_linkTimer s).symm.trans hd) nofun
  | activationHold => cases hd
  | background =>
    have hd : s.takeBackground.prof.background = some d := hd
    unfold State.takeBackground at hd
    dsimp only at hd
    split at hd
    · have hd : some (s.now + backgroundPeriod) = some d := by
        split at hd <;> exact hd
      rw [← Option.some.inj hd]
      show s.now < s.now + 3600
      omega
    · cases hd

/-! ### The end of an instant -/

/-- An event that is not due may be asked to lie beyond the count. -/
theorem Timely.strict {e : Event} (later : s.isDue e = false) (h : Timely D ph s) : Timely (fun x => D x ∨ x = e) ph s :=
  { h with
    due := fun x due hd => ⟨(h.due x due hd).1, fun asked => by
      rcases asked with named | rfl
      · exact (h.due x due hd).2 named
      · exact isDue_false_iff.mp later due hd⟩ }

theorem Timely.mono {E : Event → Prop} (le : ∀ e, E e → D e) (h : Timely D ph s) : Timely E ph s :=
  { h with due := fun x due hd => ⟨(h.due x due hd).1, fun asked => (h.due x due hd).2 (le x asked)⟩ }

theorem takeDue_timely (e : Event) (h : Timely D ph s) : Timely (fun x => D x ∨ x = e) ph (s.takeDue e) := by
  unfold State.takeDue; split
  · next due => exact (fire_timely due h).strict (fire_later due h)
  · next early => exact h.strict (Bool.eq_false_iff.mpr early)

theorem mem_all (e : Event) : e ∈ Event.all := by
  cases e with
  | minDown x | minRun x | start x | stop x | cooldown x | prune x => cases x <;> decide
  | _ => decide

theorem closeTick_timely (h : Timely D ph s) : Timely D ph (s.withTb { s.tb with tickOpen := false }) := by
  refine
    { settings := settingsSafe_congr (s := s) rfl h.settings, absent := h.absent, phase := h.phase, opened := nofun
      due := fun e => ?_, loss := h.loss, history := h.history, lastMeter := h.lastMeter }
  cases e <;> exact h.due _

/-- Once the present instant is complete no event is due (R38, R89). -/
theorem finishInstant_timely (h : Timely D ph s) : Timely (fun _ => True) ph s.finishInstant := by
  have ticked : Timely D ph (if s.tb.tickOpen then (s.withTb { s.tb with tickOpen := false }).tickParts else s) := by
    split
    · exact tickParts_timely (closeTick_timely h)
    · exact h
  have fold : ∀ (l : List Event) (E : Event → Prop) (u : State), Timely E ph u →
      Timely (fun x => E x ∨ x ∈ l) ph (l.foldl State.takeDue u) := by
    intro l
    induction l with
    | nil => exact fun E u hu => hu.mono fun e he => he.resolve_right (List.not_mem_nil)
    | cons e l ih =>
      intro E u hu
      refine (ih _ _ (takeDue_timely e hu)).mono fun x hx => ?_
      rcases hx with named | listed
      · exact .inl (.inl named)
      · rcases List.mem_cons.mp listed with rfl | later
        · exact .inl (.inr rfl)
        · exact .inr later
  unfold State.finishInstant
  exact (fold Event.all D _ ticked).mono fun e _ => .inr (mem_all e)

/-- What the end of an instant leaves of the time base (R38). -/
structure SameInstant (s t : State) : Prop where
  count : t.tb.count = s.tb.count
  phase : t.tb.phase = s.tb.phase
  clock : t.tb.clock = s.tb.clock
  closed : t.tb.tickOpen = false
  settings : t.settings = s.settings

theorem finishInstant_sameInstant (s : State) : SameInstant s s.finishInstant := by
  have start : SameInstant s (if s.tb.tickOpen then (s.withTb { s.tb with tickOpen := false }).tickParts else s) := by
    split
    · have tb := frame_tb (tickParts_frame (s.withTb { s.tb with tickOpen := false }))
      exact ⟨by rw [tb]; rfl, by rw [tb]; rfl, by rw [tb]; rfl, by rw [tb]; rfl,
        frame_settings (s := s.withTb { s.tb with tickOpen := false }) (tickParts_frame _)⟩
    · next closed => exact ⟨rfl, rfl, rfl, Bool.eq_false_iff.mpr closed, rfl⟩
  refine foldl_keeps (I := SameInstant s) (fun u e hu => ?_) _ start
  unfold State.takeDue; split
  · have settings : (u.fire e).settings = u.settings := (fire_quiet u e).settings
    by_cases loss : e = .loss
    · subst loss
      have tb : (u.fire .loss).tb = { u.tb with nextLoss := u.tb.nextLoss + 60 } := takeLosses_tb u
      exact ⟨by rw [tb]; exact hu.count, by rw [tb]; exact hu.phase, by rw [tb]; exact hu.clock, by rw [tb]; exact hu.closed,
        settings.trans hu.settings⟩
    · have tb := fire_tb (s := u) loss
      exact ⟨by rw [tb]; exact hu.count, by rw [tb]; exact hu.phase, by rw [tb]; exact hu.clock, by rw [tb]; exact hu.closed,
        settings.trans hu.settings⟩
  · exact hu

/-! ### The interval boundary -/

/-- Of the time base, a boundary moves the clock alone. -/
theorem boundary_tb (s : State) (m : Nat) : (s.boundary m).tb = { s.tb with clock := (s.boundary m).tb.clock } := by
  cases set : s.tb.clock with
  | none =>
    have stays : s.boundary m = s := by unfold State.boundary; rw [set]
    rw [stays]
  | some c =>
    rw [boundary_of_clock set]
    generalize hu : s.withTb { s.tb with clock := c.next m } = u
    have f : u.onlyChanges (((u.expireBlocks c.interval).reclamp s.band).closeRecord.openRecord false).requestReview
        [.book, .rsv, .gp, .slog, .tp, .prj] :=
      onlyChanges_trans (onlyChanges_mono (expireBlocks_frame _ _) (by decide))
        (onlyChanges_trans (onlyChanges_mono (reclamp_frame _ _) (by decide))
          (onlyChanges_trans (onlyChanges_mono (closeRecord_frame _) (by decide))
            (onlyChanges_trans (onlyChanges_mono (openRecord_frame _ _) (by decide))
              (onlyChanges_mono (requestReview_frame _) (by decide)))))
    rw [frame_tb f, ← hu]; rfl

theorem boundary_timely (m : Nat) (h : Timely D ph s) : Timely D ph (s.boundary m) := by
  have f := boundary_frame s m
  have rsv : (s.boundary m).rsv.linkTimer = s.rsv.linkTimer ∧ (s.boundary m).rsv.holdTimer = s.rsv.holdTimer := by
    cases set : s.tb.clock with
    | none =>
      have stays : s.boundary m = s := by unfold State.boundary; rw [set]
      rw [stays]; exact ⟨rfl, rfl⟩
    | some c => rw [(boundary_takesBoundary set m).grant]; exact ⟨rfl, rfl⟩
  exact timely_of_records h (frame_settings f) (boundary_tb s m) (by rw [frame_inv f]) (by rw [frame_inv f])
    (fun x => train_congr (frame_trc f) x) (by rw [frame_trc f]; exact h.due .permitHold) (by rw [frame_du f]; exact h.due .dwell)
    (by rw [rsv.1]; exact h.due .linkLoss) (by rw [rsv.2]; exact h.due .activationHold)
    (by rw [frame_prof f]; exact h.due .background)

theorem runClock_timely (n : Nat) (h : Timely D ph s) : Timely D ph (s.runClock n) := by
  unfold State.runClock; split
  · exact h
  · split
    · exact withClock_timely h rfl
    · exact boundary_timely _ h

theorem runClockUpTo_timely (n : Nat) (h : Timely D ph s) : Timely D ph (s.runClockUpTo n) := by
  unfold State.runClockUpTo; split
  · exact h
  · split
    · exact withClock_timely h rfl
    · exact boundary_timely _ h

theorem takeReached_timely (h : Timely D ph s) : Timely D ph s.takeReached := by
  unfold State.takeReached; split
  · exact h
  · split
    · exact boundary_timely _ h
    · exact h

/-! ### The passing of time -/

/-- Milliseconds pass once no event is due (R38). -/
theorem withPhase_timely (n : Nat) (closed : s.tb.tickOpen = false) (h : Timely (fun _ => True) ph s) :
    Timely (fun _ => True) (ph + n) (s.withTb { s.tb with phase := s.tb.phase + n }) := by
  refine
    { settings := settingsSafe_congr (s := s) rfl h.settings, absent := h.absent, phase := by rw [← h.phase]; rfl
      opened := fun o => absurd (closed.symm.trans o) (by decide), due := fun e => ?_, loss := h.loss, history := h.history
      lastMeter := h.lastMeter }
  cases e with
  | stale =>
    intro d hd
    have old := h.due .stale
    have hd : (s.withTb { s.tb with phase := s.tb.phase + n }).staleDue = some d := hd
    show s.now ≤ d ∧ (True → s.now < d)
    unfold State.dueAt State.staleDue at old
    unfold State.staleDue at hd
    rw [State.withTb_settings] at hd
    cases loaded : s.settings with
    | none => rw [loaded] at hd; cases hd
    | some c =>
      rw [loaded] at hd old
      dsimp only at hd old
      rw [State.withTb_inv] at hd
      split at hd
      · next fresh =>
        rw [if_pos fresh] at old
        have old := (old _ rfl).2 trivial
        have hd := Option.some.inj hd
        have now : (s.withTb { s.tb with phase := s.tb.phase + n }).now = s.now := rfl
        rw [now, State.withTb_tb] at hd
        dsimp only at hd
        split at old <;> split at hd <;> omega
      · cases hd
  | loss => exact h.due .loss
  | minDown x => exact h.due (.minDown x)
  | minRun x => exact h.due (.minRun x)
  | start x => exact h.due (.start x)
  | stop x => exact h.due (.stop x)
  | cooldown x => exact h.due (.cooldown x)
  | prune x => exact h.due (.prune x)
  | permitHold => exact h.due .permitHold
  | dwell => exact h.due .dwell
  | linkLoss => exact h.due .linkLoss
  | activationHold => exact h.due .activationHold
  | background => exact h.due .background

theorem passTime_timely (n : Nat) (closed : s.tb.tickOpen = false) (h : Timely (fun _ => True) ph s) :
    Timely (fun _ => True) (ph + n) (s.passTime n) := runClock_timely n (withPhase_timely n closed h)

/-- The count moves on once no event is due: the due times are reached at most (R38). -/
theorem nextCount_timely {o : Bool} (room : s.now + 1 < 2 ^ 48) (h : Timely (fun _ => True) ph s) :
    Timely (fun _ => False) 0 (s.withTb { s.tb with count := s.tb.count + 1, phase := 0, tickOpen := o }) := by
  have now : (s.withTb { s.tb with count := s.tb.count + 1, phase := 0, tickOpen := o }).now = s.now + 1 := by
    show (s.tb.count + 1).toNat = s.tb.count.toNat + 1
    have small : s.tb.count.toNat + (1 : BitVec 48).toNat < 2 ^ 48 := room
    rw [BitVec.toNat_add, Nat.mod_eq_of_lt small]
    rfl
  refine
    { settings := settingsSafe_congr (s := s) rfl h.settings, absent := h.absent, phase := rfl, opened := fun _ => rfl
      due := fun e => ?_
      loss := ⟨h.loss.1, by rw [now]; exact h.loss.2.trans (by omega)⟩
      history := fun x => ⟨(h.history x).1, fun stamp hs => by rw [now]; exact ((h.history x).2 stamp hs).trans (by omega)⟩
      lastMeter := by rw [now]; exact h.lastMeter.trans (by omega) }
  rw [now]
  cases e with
  | stale =>
    intro d hd
    refine ⟨?_, nofun⟩
    have hd : (s.withTb { s.tb with count := s.tb.count + 1, phase := 0, tickOpen := o }).staleDue = some d := hd
    unfold State.staleDue at hd
    rw [now] at hd
    split at hd
    · cases hd
    · split at hd
      · have hd := Option.some.inj hd
        simp only [State.withTb_tb, State.withTb_inv, if_true] at hd
        omega
      · cases hd
  | loss => exact fun d hd => ⟨(h.due .loss d hd).2 trivial, nofun⟩
  | minDown x => exact fun d hd => ⟨(h.due (.minDown x) d hd).2 trivial, nofun⟩
  | minRun x => exact fun d hd => ⟨(h.due (.minRun x) d hd).2 trivial, nofun⟩
  | start x => exact fun d hd => ⟨(h.due (.start x) d hd).2 trivial, nofun⟩
  | stop x => exact fun d hd => ⟨(h.due (.stop x) d hd).2 trivial, nofun⟩
  | cooldown x => exact fun d hd => ⟨(h.due (.cooldown x) d hd).2 trivial, nofun⟩
  | prune x => exact fun d hd => ⟨(h.due (.prune x) d hd).2 trivial, nofun⟩
  | permitHold => exact fun d hd => ⟨(h.due .permitHold d hd).2 trivial, nofun⟩
  | dwell => exact fun d hd => ⟨(h.due .dwell d hd).2 trivial, nofun⟩
  | linkLoss => exact fun d hd => ⟨(h.due .linkLoss d hd).2 trivial, nofun⟩
  | activationHold => exact fun d hd => ⟨(h.due .activationHold d hd).2 trivial, nofun⟩
  | background => exact fun d hd => ⟨(h.due .background d hd).2 trivial, nofun⟩

end Sys2Proof.Proofs
end

section
/-! O60, second part: the interval clock, the tick, the requests and the events that are not of time, and the step. -/

namespace Sys2Proof.Proofs
open Sys2Proof Sys2Proof.Machine

variable {D : Event → Prop} {ph : Nat} {s t : State}

/-! ### The interval clock -/

/-- A clock runs only with settings loaded, in one of the intervals of R39 and below `bound` milliseconds. -/
structure ClockBelow (bound : Nat) (s : State) : Prop where
  loaded : s.tb.clock.isSome = true → s.settings.isSome = true
  clock : ∀ c, s.tb.clock = some c → 1 ≤ c.interval ∧ c.interval ≤ 4000000000 ∧ c.millis < bound

theorem clockBelow_congr {b : Nat} (clock : t.tb.clock = s.tb.clock) (settings : t.settings = s.settings) (h : ClockBelow b s) :
    ClockBelow b t := ⟨by rw [clock, settings]; exact h.loaded, by rw [clock]; exact h.clock⟩

theorem clockBelow_of_frame {b : Nat} {l : List Part} (f : s.onlyChanges t l) (h : ClockBelow b s)
    (tb : Part.tb ∉ l := by decide) (settings : Part.settings ∉ l := by decide) : ClockBelow b t :=
  clockBelow_congr (by rw [frame_tb f tb]) (frame_settings f settings) h

theorem boundary_settings (s : State) (m : Nat) : (s.boundary m).settings = s.settings := frame_settings (boundary_frame s m)

theorem boundary_clockBelow {b b' m : Nat} (below : m < b') (set : s.tb.clock ≠ none) (h : ClockBelow b s) :
    ClockBelow b' (s.boundary m) := by
  obtain ⟨c, set⟩ := Option.ne_none_iff_exists'.mp set
  have moved := (boundary_takesBoundary set m).clock
  obtain ⟨first, -, -⟩ := h.clock c set
  refine ⟨fun _ => by rw [boundary_settings]; exact h.loaded (by rw [set]; rfl), fun c' hc => ?_⟩
  rw [moved] at hc
  split at hc
  · cases hc
    exact ⟨by dsimp only; omega, by dsimp only; omega, below⟩
  · cases hc

/-- The interval clock within the interval length in force (R39). -/
abbrev ClockSafe (s : State) : Prop := ClockBelow s.intervalMillis s

theorem intervalMillis_congr (settings : t.settings = s.settings) : t.intervalMillis = s.intervalMillis := by
  unfold State.intervalMillis State.cfg; rw [settings]

theorem clockSafe_congr (clock : t.tb.clock = s.tb.clock) (settings : t.settings = s.settings) (h : ClockSafe s) : ClockSafe t := by
  unfold ClockSafe; rw [intervalMillis_congr settings]; exact clockBelow_congr clock settings h

/-- An interval lasts at least five minutes (R158). -/
theorem intervalMillis_least {c : Clock} (safe : s.SettingsSafe) (h : ClockBelow b s) (set : s.tb.clock = some c) :
    300000 ≤ s.intervalMillis := by
  obtain ⟨k, loaded⟩ := Option.isSome_iff_exists.mp (h.loaded (by rw [set]; rfl))
  have := (limits_pos safe loaded).1
  unfold State.intervalMillis; rw [cfg_of_settings loaded]; omega

theorem boundary_clockSafe {b m : Nat} (below : m < s.intervalMillis) (set : s.tb.clock ≠ none) (h : ClockBelow b s) :
    ClockSafe (s.boundary m) := by
  unfold ClockSafe; rw [intervalMillis_congr (boundary_settings s m)]; exact boundary_clockBelow below set h

theorem withClock_clockBelow {b : Nat} {v : TimeBase} {c c' : Clock} (set : s.tb.clock = some c) (moved : v.clock = some c')
    (interval : c'.interval = c.interval) (below : c'.millis < b) (h : ClockSafe s) : ClockBelow b (s.withTb v) := by
  obtain ⟨first, last, -⟩ := h.clock c set
  refine ⟨fun _ => h.loaded (by rw [set]; rfl), fun x hx => ?_⟩
  cases moved.symm.trans hx
  exact ⟨by omega, by omega, below⟩

theorem runClock_clockSafe {n : Nat} (second : n ≤ 1000) (safe : s.SettingsSafe) (h : ClockSafe s) : ClockSafe (s.runClock n) := by
  unfold State.runClock; split
  · exact h
  · next c set =>
    have least := intervalMillis_least safe h set
    obtain ⟨-, -, below⟩ := h.clock c set
    split
    · next within =>
      exact withClock_clockBelow (b := s.intervalMillis) set rfl rfl within h
    · exact boundary_clockSafe (by omega) (by rw [set]; nofun) h

theorem runClockUpTo_clockBelow {n : Nat} (second : n ≤ 1000) (safe : s.SettingsSafe) (h : ClockSafe s) :
    ClockBelow (s.intervalMillis + 1) (s.runClockUpTo n) := by
  unfold State.runClockUpTo; split
  · next unset => exact ⟨h.loaded, fun c hc => absurd (unset.symm.trans hc) nofun⟩
  · next c set =>
    have least := intervalMillis_least safe h set
    obtain ⟨-, -, below⟩ := h.clock c set
    split
    · next within => exact withClock_clockBelow set rfl rfl (Nat.lt_succ_of_le within) h
    · exact boundary_clockBelow (by omega) (by rw [set]; nofun) h

theorem takeReached_clockSafe (safe : s.SettingsSafe) (h : ClockBelow (s.intervalMillis + 1) s) : ClockSafe s.takeReached := by
  unfold State.takeReached; split
  · next unset => exact ⟨h.loaded, fun c hc => absurd (unset.symm.trans hc) nofun⟩
  · next c set =>
    have least := intervalMillis_least safe h set
    split
    · exact boundary_clockSafe (by omega) (by rw [set]; nofun) h
    · next early =>
      refine ⟨h.loaded, fun x hx => ?_⟩
      obtain ⟨first, last, below⟩ := h.clock x hx
      cases set.symm.trans hx
      exact ⟨first, last, by omega⟩

theorem applyLength_clockSafe {old : Option Nat} (safe : s.SettingsSafe) {b : Nat} (h : ClockBelow b s)
    (same : old = some s.cfg.intervalLength → b = s.intervalMillis) : ClockSafe (s.applyLength old) := by
  unfold State.applyLength; split
  · next unset => exact ⟨h.loaded, fun c hc => absurd (unset.symm.trans hc) nofun⟩
  · next c set =>
    have least := intervalMillis_least safe h set
    split
    · exact boundary_clockSafe (by omega) (by rw [set]; nofun) h
    · next stays =>
      refine ⟨h.loaded, fun x hx => ?_⟩
      obtain ⟨first, last, below⟩ := h.clock x hx
      cases set.symm.trans hx
      refine ⟨first, last, ?_⟩
      by_cases length : old = some s.cfg.intervalLength
      · rw [← same length]; exact below
      · exact Nat.lt_of_not_le fun reached => stays ⟨length, reached⟩

theorem takeTrim_clockSafe {correction : Int} (range : correction ≤ 2000) (safe : s.SettingsSafe) (h : ClockSafe s) :
    ClockSafe (s.takeTrim correction) := by
  unfold State.takeTrim; split
  · exact h
  · next c set =>
    have least := intervalMillis_least safe h set
    obtain ⟨-, -, below⟩ := h.clock c set
    dsimp only
    have moved : (c.millis + appliedTrim c.millis correction).toNat < s.intervalMillis + 2000 := by
      unfold appliedTrim; omega
    split
    · exact boundary_clockSafe (by omega) (by rw [set]; nofun) h
    · next short =>
      refine withClock_clockBelow (b := s.intervalMillis) set rfl rfl ?_ h
      dsimp only
      unfold appliedTrim at moved short ⊢
      by_cases forward : 0 < correction
      · exact Nat.lt_of_not_le fun reached => short ⟨forward, reached⟩
      · omega

theorem takeClockSet_clockSafe {interval millis : Nat} (taken : s.clockSetRefusal interval millis = none) :
    ClockSafe (s.takeClockSet interval millis) := by
  have start : ClockSafe (clockSet s interval millis) := by
    unfold State.clockSetRefusal at taken
    split at taken
    · cases taken
    · next k loaded =>
      split at taken
      · cases taken
      · split at taken
        · cases taken
        · next range =>
          have length : (clockSet s interval millis).intervalMillis = k.intervalLength * 60000 := by
            unfold State.intervalMillis; rw [cfg_of_settings (s := clockSet s interval millis) loaded]
          refine ⟨fun _ => Option.isSome_iff_exists.mpr ⟨k, loaded⟩, fun c hc => ?_⟩
          cases Option.some.inj hc
          unfold lastInterval at range
          rw [length]
          dsimp only
          omega
  rw [takeClockSet_eq]
  have f := onlyChanges_trans (onlyChanges_mono (openRecord_frame (clockSet s interval millis) true) (m := [.slog, .prj, .tp]) (by decide))
    (onlyChanges_mono (m := [.slog, .prj, .tp]) (startPendingReview_frame _) (by decide))
  exact clockSafe_congr (by rw [frame_tb f]) (frame_settings f) start

/-! ### The invariant, in two parts -/

theorem timeSafe_iff : s.TimeSafe ↔ Timely (fun _ => 0 < s.tb.phase) s.tb.phase s ∧ s.tb.phase ≤ 1000 ∧ ClockSafe s := by
  constructor
  · intro h
    exact ⟨
      { settings := h.settings, absent := h.absent, phase := rfl, opened := h.opened
        due := fun e due hd => ⟨h.onTime e due hd, fun later => isDue_false_iff.mp (h.taken later e) due hd⟩
        loss := h.loss, history := h.history, lastMeter := h.lastMeter }, h.phase, ⟨h.loaded, h.clock⟩⟩
  · rintro ⟨timers, phase, clock⟩
    exact
      { settings := timers.settings, absent := timers.absent, phase := phase, opened := timers.opened
        onTime := fun e due hd => (timers.due e due hd).1
        taken := fun later e => isDue_false_iff.mpr fun due hd => (timers.due e due hd).2 later
        loss := timers.loss, loaded := clock.loaded, clock := clock.clock, history := timers.history, lastMeter := timers.lastMeter }

theorem timeSafe_of {D : Event → Prop} (timers : Timely D ph s) (strict : 0 < ph → ∀ e, D e) (phase : ph ≤ 1000) (clock : ClockSafe s) :
    s.TimeSafe :=
  timeSafe_iff.mpr ⟨timers.phase ▸ timers.mono fun e later => strict later e, timers.phase ▸ phase, clock⟩

/-! ### Ticks, events and the boundary -/

theorem TimeSafe.timers (h : s.TimeSafe) : Timely (fun _ => 0 < s.tb.phase) s.tb.phase s := (timeSafe_iff.mp h).1

theorem TimeSafe.clockSafe (h : s.TimeSafe) : ClockSafe s := (timeSafe_iff.mp h).2.2

theorem finishInstant_clockSafe (h : ClockSafe s) : ClockSafe s.finishInstant :=
  have same := finishInstant_sameInstant s
  clockSafe_congr same.clock same.settings h

theorem passTime_timeSafe {n : Nat} (second : s.tb.phase + n ≤ 1000) (h : s.TimeSafe) : (s.finishInstant.passTime n).TimeSafe := by
  have same := finishInstant_sameInstant s
  have timers := finishInstant_timely (TimeSafe.timers h)
  have clock := finishInstant_clockSafe (TimeSafe.clockSafe h)
  refine timeSafe_of (passTime_timely n same.closed timers) (fun _ _ => trivial) second ?_
  generalize s.finishInstant = u at timers clock
  unfold State.passTime
  exact runClock_clockSafe (by omega) (settingsSafe_congr (s := u) rfl timers.settings)
    (clockSafe_congr (s := u) rfl rfl clock)

theorem runClock_now (s : State) (n : Nat) : (s.runClock n).now = s.now := by
  unfold State.runClock; split
  · rfl
  · split
    · rfl
    · exact now_congr (by rw [boundary_tb])

theorem passTime_now (s : State) (n : Nat) : (s.passTime n).now = s.now := by
  unfold State.passTime; rw [runClock_now]; rfl

theorem runClockUpTo_now (s : State) (n : Nat) : (s.runClockUpTo n).now = s.now := by
  unfold State.runClockUpTo; split
  · rfl
  · split
    · rfl
    · exact now_congr (by rw [boundary_tb])

theorem nextTick_timeSafe {o : Bool} (room : s.now + 1 < 2 ^ 48) (h : s.TimeSafe) : (s.nextTick o).TimeSafe := by
  have same := finishInstant_sameInstant s
  have now : s.finishInstant.now = s.now := now_congr same.count
  have small : s.tb.phase ≤ 1000 := h.phase
  have passed := passTime_timeSafe (n := secondMillis - s.tb.phase) (by unfold secondMillis; omega) h
  have timers := passTime_timely (secondMillis - s.tb.phase) same.closed (finishInstant_timely (TimeSafe.timers h))
  have time : (s.finishInstant.passTime (secondMillis - s.tb.phase)).now = s.now :=
    (passTime_now _ _).trans now
  unfold State.nextTick
  dsimp only
  rw [same.phase]
  generalize s.finishInstant.passTime (secondMillis - s.tb.phase) = u at passed timers time
  have next := nextCount_timely (o := o) (s := u) (time ▸ room) timers
  have clock : ClockSafe (u.withTb { u.tb with count := u.tb.count + 1, phase := 0, tickOpen := o }) :=
    clockSafe_congr (s := u) rfl rfl (TimeSafe.clockSafe passed)
  exact timeSafe_of next (fun later => False.elim (Nat.lt_irrefl 0 later)) (Nat.zero_le _) clock

/-- The instant of a tick: the timers are on time, and a boundary reached at it is still to be taken (R38, R39). -/
theorem tickInstant_timely (room : s.now + 1 < 2 ^ 48) (h : s.TimeSafe) :
    Timely (fun _ => False) 0 s.tickInstant ∧ ClockBelow (s.tickInstant.intervalMillis + 1) s.tickInstant := by
  unfold State.tickInstant; split
  · next opened =>
    have timers := (closeTick_timely (TimeSafe.timers h)).mono (E := fun _ => False) fun _ never => never.elim
    refine ⟨h.opened opened ▸ timers, h.loaded, fun c hc => ?_⟩
    obtain ⟨first, last, below⟩ := h.clock c hc
    exact ⟨first, last, Nat.lt_succ_of_lt below⟩
  · have same := finishInstant_sameInstant s
    have timers := finishInstant_timely (TimeSafe.timers h)
    have clock := finishInstant_clockSafe (TimeSafe.clockSafe h)
    have now : s.finishInstant.now = s.now := now_congr same.count
    unfold State.endSecond
    dsimp only
    generalize s.finishInstant = u at timers clock now
    have run := runClockUpTo_timely (secondMillis - u.tb.phase) timers
    have below := runClockUpTo_clockBelow (n := secondMillis - u.tb.phase) (Nat.sub_le _ _) timers.settings clock
    have time := (runClockUpTo_now u (secondMillis - u.tb.phase)).trans now
    have settings : (u.runClockUpTo (secondMillis - u.tb.phase)).settings = u.settings := by
      unfold State.runClockUpTo; split
      · rfl
      · split
        · rfl
        · exact boundary_settings _ _
    rw [← intervalMillis_congr settings] at below
    generalize u.runClockUpTo (secondMillis - u.tb.phase) = v at run below time
    exact ⟨nextCount_timely (by rw [time]; exact room) run, below.loaded, below.clock⟩

theorem takeTick_timeSafe (room : s.now + 1 < 2 ^ 48) (h : s.TimeSafe) : s.takeTick.TimeSafe := by
  obtain ⟨timers, clock⟩ := tickInstant_timely room h
  unfold State.takeTick
  generalize s.tickInstant = u at timers clock
  have f := tickParts_frame u
  have ticked := tickParts_timely timers
  have kept : ClockBelow (u.tickParts.intervalMillis + 1) u.tickParts := by
    rw [intervalMillis_congr (frame_settings f)]; exact clockBelow_of_frame f clock
  exact timeSafe_of (takeReached_timely ticked) (fun later => False.elim (Nat.lt_irrefl 0 later)) (Nat.zero_le _)
    (takeReached_clockSafe ticked.settings kept)

theorem takenAt_timeSafe {e : Event} (room : s.now + 1 < 2 ^ 48) (taken : s.takenAt e t) (h : s.TimeSafe) : t.TimeSafe := by
  rcases taken with ⟨-, rfl⟩ | ⟨-, -, rfl, -⟩
  · exact h
  · exact nextTick_timeSafe room h

theorem fire_timeSafe {e : Event} (due : s.isDue e = true) (h : s.TimeSafe) : (s.fire e).TimeSafe :=
  have quiet := fire_quiet s e
  timeSafe_of (fire_timely due (TimeSafe.timers h)) (fun later _ => later) h.phase
    (clockSafe_congr quiet.clock quiet.settings (TimeSafe.clockSafe h))

theorem atEvent_timeSafe {e : Event} (room : s.now + 1 < 2 ^ 48) (h : s.TimeSafe) : (s.atEvent e).TimeSafe := by
  unfold State.atEvent; split
  · exact h
  · next u hu =>
    have taken := (eventInstant_iff s e u).mp hu
    obtain ⟨due, hd, le⟩ := takenAt_due taken
    have now : u.isDue e = true := by unfold State.isDue; rw [hd]; exact decide_eq_true le
    exact fire_timeSafe now (takenAt_timeSafe room taken h)

theorem reachBoundary_timeSafe (h : s.TimeSafe) : s.reachBoundary.TimeSafe := by
  unfold State.reachBoundary; dsimp only; split
  · exact h
  · split
    · next within =>
      rw [(finishInstant_sameInstant s).phase] at within
      exact passTime_timeSafe within h
    · exact h

theorem setPort_timely (p : Port) (x : PortState) (h : Timely D ph s) : Timely D ph (s.setPort p x) :=
  timely_of_frame (setPort_frame s p x) h (by cases p <;> decide)

theorem setPort_timeSafe (p : Port) (x : PortState) (h : s.TimeSafe) : (s.setPort p x).TimeSafe :=
  timeSafe_of (setPort_timely p x (TimeSafe.timers h)) (fun later _ => later) h.phase
    (clockSafe_congr (by rw [setPort_tb]) (frame_settings (setPort_frame s p x) (by cases p <;> decide)) (TimeSafe.clockSafe h))

theorem passMillisecond_timeSafe (room : s.now + 1 < 2 ^ 48) (h : s.TimeSafe) : s.passMillisecond.TimeSafe := by
  have sent : s.sendNotice.TimeSafe := setPort_timeSafe .tp _ h
  have now : s.sendNotice.now = s.now := rfl
  unfold State.passMillisecond; dsimp only
  generalize s.sendNotice = u at sent now
  split
  · next within => exact passTime_timeSafe (by unfold secondMillis at within; omega) sent
  · exact takeTick_timeSafe (by rw [now]; exact room) sent

end Sys2Proof.Proofs
end

section
/-! O60, third part: the completion of a profile check, the requests and the resets, and the step. -/

namespace Sys2Proof.Proofs
open Sys2Proof Sys2Proof.Machine

variable {D : Event → Prop} {ph : Nat} {s t : State}

/-! ### The completion of a profile check -/

/-- New settings put no stale test behind the count; in the midst of a second it waits for the next tick (R17, R38). -/
theorem withSettings_timely {c : Settings} (strict : D .stale → 0 < ph) (safe : (s.withSettings (some c)).SettingsSafe)
    (h : Timely D ph s) : Timely D ph (s.withSettings (some c)) := by
  refine
    { settings := safe, absent := nofun, phase := h.phase, opened := h.opened, due := fun e => ?_, loss := h.loss
      history := h.history, lastMeter := h.lastMeter }
  cases e with
  | stale =>
    intro d hd
    show s.now ≤ d ∧ (D .stale → s.now < d)
    have hd : (if s.inv.metering = .fresh then
      some (max (s.inv.lastMeter + c.staleLimit) (if s.tb.phase = 0 then s.now else s.now + 1)) else none) = some d := hd
    rw [h.phase] at hd
    split at hd
    · have hd := Option.some.inj hd
      refine ⟨?_, fun asked => ?_⟩
      · split at hd <;> omega
      · rw [if_neg (strict asked).ne'] at hd; omega
    · cases hd
  | loss => exact h.due .loss
  | minDown x => exact h.due (.minDown x)
  | minRun x => exact h.due (.minRun x)
  | start x => exact h.due (.start x)
  | stop x => exact h.due (.stop x)
  | cooldown x => exact h.due (.cooldown x)
  | prune x => exact h.due (.prune x)
  | permitHold => exact h.due .permitHold
  | dwell => exact h.due .dwell
  | linkLoss => exact h.due .linkLoss
  | activationHold => exact h.due .activationHold
  | background => exact h.due .background

theorem loadInventory_timely (c : Settings) (h : Timely D ph s) : Timely D ph (s.loadInventory c) := by
  unfold State.loadInventory; dsimp only; split
  · exact markRecord_timely .setClamped (raise_timely .pp .clamp (withInv_timely h))
  · exact withInv_timely h

theorem applyLength_timely (old : Option Nat) (h : Timely D ph s) : Timely D ph (s.applyLength old) := by
  unfold State.applyLength; split
  · exact h
  · split
    · exact boundary_timely 0 h
    · exact h

theorem firstLinkLoad_timely (wasLoaded : Bool) (loaded : s.settings ≠ none) (h : Timely D ph s) :
    Timely D ph (s.firstLinkLoad wasLoaded) := by
  obtain ⟨c, loaded⟩ := Option.ne_none_iff_exists'.mp loaded
  have timeout := (limits_pos h.settings loaded).2.2.2
  unfold State.firstLinkLoad; split
  · exact withRsv_timely h (due_later (by rw [cfg_of_settings loaded]; omega)) (h.due .activationHold)
  · exact h

/-- The blocks before the link timer have taken their values: the settings stand. -/
theorem handedOver_settings (s : State) (old : Option Nat) (m : CheckMode) (c : Settings) :
    (Train.all.foldl State.applyInstalled (((s.loadInventory c).applyLength old).applyDefaultMode m)).clampSetpoints.settings =
      s.settings := by
  show (Train.all.foldl State.applyInstalled (((s.loadInventory c).applyLength old).applyDefaultMode m)).settings = s.settings
  rw [(easesSetpoints_foldl applyInstalled_eases Train.all _).settings, frame_settings (applyDefaultMode_frame _ _),
    frame_settings (applyLength_frame _ _), frame_settings (loadInventory_frame _ _)]

theorem handValues_timely {image : Image} (passed : failingField image = none) (strict : D .stale → 0 < ph) (h : Timely D ph s) :
    Timely D ph (s.handValues image) := by
  unfold State.handValues; dsimp only
  have set := withSettings_timely strict (settingsSafe_ofImage passed s) h
  generalize hu : s.withSettings (some (.ofImage image)) = u at set
  have loaded : u.settings ≠ none := by rw [← hu]; nofun
  have handed := foldl_keeps (fun _ x hv => applyInstalled_timely x hv) Train.all
    (timely_of_frame (applyDefaultMode_frame _ image.defaultCheckMode)
      (applyLength_timely (s.settings.map Settings.intervalLength) (loadInventory_timely u.cfg set)))
  refine firstLinkLoad_timely _ ?_ (withDu_timely handed (handed.due .dwell))
  rw [handedOver_settings]; exact loaded

theorem setMode_timely (m : Mode) (h : Timely D ph s) : Timely D ph (s.setMode m) :=
  raise_timely .gp .mode (raise_timely .tp .mode (withProf_timely h (h.due .background)))

theorem takeSensitivities_timely (h : Timely D ph s) : Timely D ph s.takeSensitivities := by
  have train (x : Train) : s.takeSensitivities.train x = { s.train x with sensitivity := s.prof.working.sensitivity x } :=
    PerTrain.get_of _ _
  refine timely_of h rfl rfl rfl rfl (fun x => ?_) (h.due .permitHold) (h.due .dwell) (h.due .linkLoss) (h.due .activationHold)
    (h.due .background)
  have record := h.record x
  rw [train]
  exact ⟨⟨record.minDown, record.minRun, record.start, record.stop, record.cooldown, record.prune, record.rises, record.past⟩,
    fun none => h.absent none x⟩

theorem enterService_timely (h : Timely D ph s) : Timely D ph s.enterService := by
  have requested := requestReview_timely (foldl_keeps (fun _ x hv => tryRelease_timely x hv) Train.all
    (takeSensitivities_timely (setMode_timely .service h)))
  exact withProf_timely requested (due_later (Nat.lt_add_of_pos_right (by decide)))

theorem leaveService_timely (h : Timely D ph s) : Timely D ph s.leaveService := by
  have zeroed : Timely D ph (s.withDu { s.du.zeroed with derateReported := false }) := withDu_timely h (h.due .dwell)
  exact withProf_timely (withRsv_timely zeroed (zeroed.due .linkLoss) (zeroed.due .activationHold)) (due_none _ _)

theorem modeAfterPass_timely (purpose : Purpose) (h : Timely D ph s) : Timely D ph (s.modeAfterPass purpose) := by
  unfold State.modeAfterPass; split
  · exact setMode_timely _ h
  · exact enterService_timely h
  · exact h

theorem modeAfterFail_timely (purpose : Purpose) (h : Timely D ph s) : Timely D ph (s.modeAfterFail purpose) := by
  unfold State.modeAfterFail; split
  · exact setMode_timely _ h
  · exact leaveService_timely (tripActive_timely _ (setMode_timely _ h))
  · exact h

theorem checkPassed_timely (purpose : Purpose) {image : Image} (passed : failingField image = none) (strict : D .stale → 0 < ph)
    (h : Timely D ph s) : Timely D ph (s.checkPassed purpose image) := by
  unfold State.checkPassed; dsimp only
  exact raise_timely _ _ (modeAfterPass_timely purpose (handValues_timely passed strict (withProf_timely h (h.due .background))))

theorem checkFailed_timely (purpose : Purpose) (field : Nat) (h : Timely D ph s) : Timely D ph (s.checkFailed purpose field) := by
  unfold State.checkFailed; dsimp only
  exact raise_timely _ _ (modeAfterFail_timely purpose (withProf_timely h (h.due .background)))

/-! ### Commands -/

theorem timely_keptByFrames (D : Event → Prop) (ph : Nat) : KeptByFrames (Timely D ph) where
  port p x h := setPort_timely p x h
  link := by
    intro s h
    refine withRsv_timely h ?_ ?_
    · unfold State.linkAfterFrame
      dsimp only
      split
      · exact h.due .linkLoss
      · next c loaded =>
        have timeout := (limits_pos h.settings loaded).2.2.2
        exact due_later (by omega)
    · unfold State.linkAfterFrame
      dsimp only
      split
      · exact due_none _ _
      · exact h.due .activationHold

theorem afterReset_timely (D : Event → Prop) (working stored : Image) (lines : PerTrain Bool) (draws : Nat) (pending : List Instr) :
    Timely D 0 (State.afterReset working stored lines draws pending) := by
  refine
    { settings := nofun, absent := fun _ x => by cases x <;> rfl, phase := rfl, opened := fun _ => rfl, due := fun e => ?_
      loss := ⟨show 60 ∣ 60 by decide, Nat.le_add_left _ _⟩, history := fun x => ?_, lastMeter := Nat.le_refl _ }
  · cases e with
    | loss => exact due_later (show 0 < 60 by decide)
    | minDown x | minRun x | start x | stop x | cooldown x | prune x => cases x <;> exact due_none _ _
    | _ => exact due_none _ _
  · cases x <;> exact ⟨List.Pairwise.nil, nofun⟩

theorem takeClockSet_timely (interval millis : Nat) (h : Timely D ph s) : Timely D ph (s.takeClockSet interval millis) := by
  rw [takeClockSet_eq]
  have set : Timely D ph (clockSet s interval millis) := timely_of_frame (withSlog_frame _ _) (withClock_timely h rfl)
  exact timely_of_frame (startPendingReview_frame _) (timely_of_frame (openRecord_frame _ _) set)

theorem takeTrim_timely (correction : Int) (h : Timely D ph s) : Timely D ph (s.takeTrim correction) := by
  unfold State.takeTrim; split
  · exact h
  · dsimp only; split
    · exact boundary_timely _ h
    · exact withClock_timely h rfl

theorem exec_timely (c : Instr) (timed : ¬ IsTimeEvent c) (strict : D .stale → 0 < ph) (h : Timely D ph s) (e : exec c s = .next t) :
    Timely D ph t ∨ ∃ working stored lines draws pending, t = State.afterReset working stored lines draws pending := by
  have f := exec_wideFrame e
  have kept := timely_keptByFrames D ph
  have answered (u : State) (p : Port) (k : Byte) (r : Result) (l : List Byte) (hu : Timely D ph u) :
      Timely D ph (u.respond p k r l) := kept.respond p k r l hu
  cases c
  case powerOnReset => cases e; exact .inr ⟨_, _, _, _, _, rfl⟩
  case pinReset =>
    cases e; split
    · exact .inr ⟨_, _, _, _, _, rfl⟩
    · exact .inl h
  all_goals refine .inl ?_
  case meter report =>
    cases e
    refine kept.takeFrame (fun u hu => ?_) h
    split
    · exact answered _ _ _ _ _ (workMeter_timely report hu)
    · exact answered _ _ _ _ _ hu
  case anchor =>
    cases e
    refine kept.takeFrame (fun u hu => ?_) h
    split
    · exact answered _ _ _ _ _ (takeAnchor_timely _ _ hu)
    · exact answered _ _ _ _ _ hu
  case declareAvailable =>
    cases e; split
    case isFalse => exact h
    refine kept.takeFrame (fun u hu => ?_) h
    split
    · exact answered _ _ _ _ _ hu
    split
    · exact answered _ _ _ _ _ hu
    split
    · next offline => exact answered _ _ _ _ _ (declare_timely _ offline hu)
    · exact answered _ _ _ _ _ hu
  case declareOffline =>
    cases e
    refine kept.takeFrame (fun u hu => ?_) h
    split
    · exact answered _ _ _ _ _ hu
    split
    · next x _ stopped =>
      have left := leave_timely (hu.record x)
      exact answered _ _ _ _ _ (changeAvailability_timely (setTrain_present_timely hu (by rw [stopped]; decide)
        ⟨left.minDown, left.minRun, left.start, left.stop, left.cooldown, left.prune, left.rises, left.past⟩))
    · exact answered _ _ _ _ _ hu
  case release =>
    cases e
    refine kept.takeFrame (fun u hu => ?_) h
    split
    · exact answered _ _ _ _ _ hu
    split
    · next x _ locked =>
      have record := hu.record x
      exact answered _ _ _ _ _ (tryRelease_timely x (setTrain_present_timely hu (by rw [locked]; decide)
        ⟨record.minDown, record.minRun, record.start, record.stop, record.cooldown, record.prune, record.rises, record.past⟩))
    · exact answered _ _ _ _ _ hu
  case profileWrite | profileStore | profileCheck | enterService =>
    cases e
    refine kept.takeFrame (fun u hu => ?_) h
    split
    · exact answered _ _ _ _ _ hu
    · exact answered _ _ _ _ _ (withProf_timely hu (hu.due .background))
  case profileLoad =>
    cases e
    refine kept.takeFrame (fun u hu => ?_) h
    split
    · exact answered _ _ _ _ _ hu
    · exact answered _ _ _ _ _ (withProf_timely (s := u.withProf { u.prof with working := u.prof.stored, bad := true })
        (withProf_timely hu (hu.due .background)) (hu.due .background))
  case profileStoreCompletion =>
    cases e; split
    · exact raise_timely _ _ (withProf_timely h (h.due .background))
    · exact h
  case profileMemoryFault => cases e; exact withProf_timely h (h.due .background)
  case profileCheckCompletion =>
    cases e; split
    · split
      · next passed => exact checkPassed_timely _ passed strict h
      · exact checkFailed_timely _ _ h
    · exact h
  case enterMaintenance =>
    cases e
    refine kept.takeFrame (fun u hu => ?_) h
    split
    · exact answered _ _ _ _ _ hu
    · exact answered _ _ _ _ _ hu
    · exact answered _ _ _ _ _ (setMode_timely _ hu)
    · split
      · exact answered _ _ _ _ _ hu
      · exact answered _ _ _ _ _ (leaveService_timely (setMode_timely _ hu))
  case clockSet =>
    cases e
    refine kept.takeFrame (fun u hu => ?_) h
    split
    · exact answered _ _ _ _ _ hu
    · exact answered _ _ _ _ _ (takeClockSet_timely _ _ hu)
  case clockTrim =>
    cases e
    refine kept.takeFrame (fun u hu => ?_) h
    split
    · exact answered _ _ _ _ _ hu
    · split
      · exact answered _ _ _ _ _ hu
      · exact answered _ _ _ _ _ (takeTrim_timely _ hu)
  case activate =>
    cases e
    refine kept.takeFrame (fun u hu => ?_) h
    split
    · exact answered _ _ _ _ _ (withRsv_timely hu (hu.due .linkLoss) (hu.due .activationHold))
    · exact answered _ _ _ _ _ hu
  case poll => cases e; exact kept.takeFrame (fun u hu => answered _ _ _ _ _ hu) h
  case tripFallingEdge =>
    cases e; split
    · exact fallingEdge_timely _ h
    · exact h
  case tripRisingEdge =>
    cases e; split
    · exact h
    · exact risingEdge_timely _ h
  case frameDiscard p _ | unknownKind p _ | badLength p _ _ | responseSent p | status p | causes p | enables p _ | clearLink p =>
    exact kept.exec ⟨p, rfl⟩ h e
  case dispatchTick | intervalBoundary | lossTick | staleOnset | minDownExpiry | minRunExpiry | startTimerExpiry | stopTimerExpiry
    | cooldownExpiry | startHistoryPrune | permitHoldExpiry | dwellExpiry | gridLinkLoss | activationHoldExpiry | backgroundCheck =>
    exact absurd (isTimeEvent_of_parts rfl) timed
  all_goals
    dsimp only [widePartsOf, partsOf] at f
    exact timely_of_frame f h

/-! ### The interval clock -/

theorem handValues_clockSafe {image : Image} (passed : failingField image = none) (h : ClockSafe s) : ClockSafe (s.handValues image) := by
  unfold State.handValues; dsimp only
  have safe := settingsSafe_ofImage passed s
  have below : ClockBelow s.intervalMillis (s.withSettings (some (.ofImage image))) := ⟨fun _ => rfl, h.clock⟩
  have same : s.settings.map Settings.intervalLength = some (s.withSettings (some (.ofImage image))).cfg.intervalLength →
      s.intervalMillis = (s.withSettings (some (.ofImage image))).intervalMillis := by
    intro kept
    obtain ⟨c, loaded, length⟩ := Option.map_eq_some_iff.mp kept
    unfold State.intervalMillis
    rw [cfg_of_settings loaded, length]
  generalize s.withSettings (some (.ofImage image)) = u at safe below same
  have f := loadInventory_frame u u.cfg
  generalize u.loadInventory u.cfg = v at f
  have settings : v.settings = u.settings := frame_settings f
  have taken : ClockSafe (v.applyLength (s.settings.map Settings.intervalLength)) :=
    applyLength_clockSafe (settingsSafe_congr settings safe) (clockBelow_of_frame f below) fun kept => by
      rw [intervalMillis_congr settings]
      exact same (by unfold State.cfg at kept ⊢; rw [settings] at kept; exact kept)
  generalize v.applyLength (s.settings.map Settings.intervalLength) = w at taken
  have moded := applyDefaultMode_frame w image.defaultCheckMode
  have quiet := ((foldl_quiet applyInstalled_quiet Train.all (w.applyDefaultMode image.defaultCheckMode)).trans
    (clampSetpoints_quiet _)).trans (firstLinkLoad_quiet _ s.settings.isSome)
  exact clockSafe_congr (quiet.clock.trans (by rw [frame_tb moded])) (quiet.settings.trans (frame_settings moded)) taken

theorem clockSafe_of_frame {l : List Part} (f : s.onlyChanges t l) (h : ClockSafe s) (tb : Part.tb ∉ l := by decide)
    (settings : Part.settings ∉ l := by decide) : ClockSafe t :=
  clockSafe_congr (by rw [frame_tb f tb]) (frame_settings f settings) h

theorem checkPassed_clockSafe (purpose : Purpose) {image : Image} (passed : failingField image = none) (h : ClockSafe s) :
    ClockSafe (s.checkPassed purpose image) := by
  unfold State.checkPassed; dsimp only
  have handed := handValues_clockSafe passed (clockSafe_of_frame (withProf_frame s { s.prof with
    bad := false, lastCheck := .pass, failingField := 0, activity := .idle, siteCode := image.field 1 }) h)
  generalize State.handValues _ image = u at handed
  exact clockSafe_of_frame (raise_frame _ .pp _) (clockSafe_of_frame (modeAfterPass_frame u purpose) handed)

/-- A request that keeps the clock once it is taken keeps it. -/
theorem takeFrame_clockSafe {p : Port} {act : State → State}
    (acts : ∀ u : State, u.SettingsSafe → ClockSafe u → ClockSafe (act u)) (safe : s.SettingsSafe) (h : ClockSafe s) :
    ClockSafe (s.takeFrame p act) := by
  have both : KeptByFrames fun u => u.SettingsSafe ∧ ClockSafe u :=
    ⟨fun p x h => ⟨settingsSafe_congr (frame_settings (setPort_frame _ p x) (by cases p <;> decide)) h.1,
      clockSafe_of_frame (setPort_frame _ p x) h.2 (by cases p <;> decide) (by cases p <;> decide)⟩,
      fun {u} h => ⟨settingsSafe_congr (s := u) rfl h.1, clockSafe_of_frame (withRsv_frame u _) h.2⟩⟩
  obtain ⟨u, hu, -, taken⟩ := takeFrame_cases s p act
  have kept : u.SettingsSafe ∧ ClockSafe u := by
    rcases hu with rfl | rfl
    · exact ⟨safe, h⟩
    · exact both.port p _ ⟨safe, h⟩
  rcases taken with ⟨-, e⟩ | ⟨-, e⟩ <;> rw [e]
  · exact (both.countError p kept).2
  · have ready := both.taken p kept
    exact acts _ ready.1 ready.2

theorem exec_clockSafe (c : Instr) (timed : ¬ IsTimeEvent c) (safe : s.SettingsSafe) (h : ClockSafe s) (e : exec c s = .next t) :
    ClockSafe t := by
  have f := exec_wideFrame e
  have reset (working stored lines draws pending) : ClockSafe (State.afterReset working stored lines draws pending) :=
    ⟨nofun, nofun⟩
  have answered (u : State) (r : Result) (k : Byte) (l : List Byte) (hu : ClockSafe u) : ClockSafe (u.respond .tp k r l) :=
    clockSafe_of_frame (respond_frame u .tp k r l) hu
  cases c
  case powerOnReset => cases e; exact reset ..
  case pinReset =>
    cases e; split
    · exact reset ..
    · exact h
  case profileCheckCompletion =>
    cases e; split
    · split
      · next passed => exact checkPassed_clockSafe _ passed h
      · exact clockSafe_of_frame (checkFailed_frame _ _ _) h
    · exact h
  case clockSet =>
    cases e
    refine takeFrame_clockSafe (fun u _ hu => ?_) safe h
    split
    · exact answered _ _ _ _ hu
    · next taken => exact answered _ _ _ _ (takeClockSet_clockSafe taken)
  case clockTrim =>
    cases e
    refine takeFrame_clockSafe (fun u safe hu => ?_) safe h
    split
    · exact answered _ _ _ _ hu
    · split
      · exact answered _ _ _ _ hu
      · next range =>
        unfold maxTrim at range
        exact answered _ _ _ _ (takeTrim_clockSafe (by omega) safe hu)
  case dispatchTick | intervalBoundary | lossTick | staleOnset | minDownExpiry | minRunExpiry | startTimerExpiry | stopTimerExpiry
    | cooldownExpiry | startHistoryPrune | permitHoldExpiry | dwellExpiry | gridLinkLoss | activationHoldExpiry | backgroundCheck =>
    exact absurd (isTimeEvent_of_parts rfl) timed
  all_goals
    dsimp only [widePartsOf, partsOf] at f
    exact clockSafe_of_frame f h

/-! ### Every step -/

theorem exec_timeSafe (c : Instr) (room : s.now + 1 < 2 ^ 48) (h : s.TimeSafe) (e : exec c s = .next t) : t.TimeSafe := by
  by_cases timed : IsTimeEvent c
  · rcases timed with rfl | rfl | ⟨x, rfl⟩
    · exact Host.Outcome.next.inj e ▸ takeTick_timeSafe room h
    · exact Host.Outcome.next.inj e ▸ reachBoundary_timeSafe h
    · exact Host.Outcome.next.inj ((exec_row s x).symm.trans e) ▸ atEvent_timeSafe room h
  · have clock := exec_clockSafe c timed h.settings (TimeSafe.clockSafe h) e
    rcases exec_timely c timed id (TimeSafe.timers h) e with timers | ⟨working, stored, lines, draws, pending, rfl⟩
    · exact timeSafe_of timers (fun later _ => later) h.phase clock
    · exact timeSafe_of (afterReset_timely (fun _ => False) ..) (fun later => False.elim (Nat.lt_irrefl 0 later)) (Nat.zero_le _) clock

theorem withPending_timeSafe (queue : List Instr) (h : s.TimeSafe) : (s.withPending queue).TimeSafe :=
  timeSafe_of (timely_of_frame (withPending_frame s queue) (TimeSafe.timers h)) (fun later _ => later) h.phase
    (clockSafe_of_frame (withPending_frame s queue) (TimeSafe.clockSafe h))

/-- Settles O60: time passes only once the instant is complete, when every event lies beyond the count, and no operation sets a timer at or
behind it. -/
theorem stepsKeepTheTimersOnTime : Obligations.StepsKeepTheTimersOnTime := by
  intro s t h room e
  unfold step at e; split at e
  · cases e; exact passMillisecond_timeSafe room h
  · next c rest _ => exact exec_timeSafe c (s := s.withPending rest) room (withPending_timeSafe rest h) e

end Sys2Proof.Proofs
end

section
/-! The step (O1, O2), the end of a device second and the events due (O3), the resets (O4, O5, O55) and the output pins (O6). -/

namespace Sys2Proof.Proofs
open Sys2Proof Sys2Proof.Machine

variable {s t : State}

/-- Settles O1. -/
theorem stepRunsTheFrontCommand : Obligations.StepRunsTheFrontCommand := by
  intro s c rest queued
  unfold step; rw [queued]

/-! ### The milliseconds of a second -/

theorem band_withTb (s : State) {b : TimeBase} (clock : b.clock = s.tb.clock) : (s.withTb b).band = s.band := by
  unfold State.band State.currentBlock; rw [State.withTb_tb, clock]; rfl

/-- Of the state before it, a boundary looks at no more of the time base than the clock. -/
theorem takesBoundary_of_withTb {b : TimeBase} {c : Clock} {m : Nat} (clock : b.clock = s.tb.clock)
    (h : (s.withTb b).TakesBoundary t c m) : s.TakesBoundary t c m :=
  { clock := h.clock, book := h.book, grant := h.grant, ring := h.ring, opened := h.opened, record := h.record, review := h.review
    band := by rw [h.band, band_withTb s clock]; rfl
    frame := onlyChanges_trans (onlyChanges_mono (withTb_frame s b) (by decide)) h.frame }

/-- And of the state after it, at the clock alone. -/
theorem takesBoundary_withTb {b : TimeBase} {c : Clock} {m : Nat} (h : s.TakesBoundary t c m) (clock : b.clock = t.tb.clock) :
    s.TakesBoundary (t.withTb b) c m := by
  have block : (t.withTb b).currentBlock = t.currentBlock := by unfold State.currentBlock; rw [State.withTb_tb, clock]; rfl
  refine
    { clock := clock.trans h.clock, book := h.book, ring := h.ring, record := h.record
      grant := by rw [band_withTb t clock]; exact h.grant
      band := by rw [band_withTb t clock]; exact h.band
      opened := by rw [block]; exact h.opened
      review := ?_
      frame := onlyChanges_trans h.frame (onlyChanges_mono (withTb_frame t b) (by decide)) }
  have review := h.review
  unfold State.reviewRequested at review ⊢
  rw [State.withTb_tb, State.withTb_inv, clock]
  exact review

theorem runClock_of_noBoundary {n : Nat} (h : s.noBoundary n) :
    s.runClock n = s.withTb
      { s.tb with clock := s.tb.clock.map fun c => { interval := c.interval, millis := c.millis + n } } := by
  unfold State.runClock; split
  · next unset => rw [unset]; exact (congrArg s.withTb (by rw [Option.map_none, ← unset])).symm
  · next c set => rw [set]; exact if_pos (h c set)

theorem runClock_takesBoundary {n : Nat} {c : Clock} (set : s.tb.clock = some c) (reached : s.cfg.intervalLength * 60000 ≤ c.millis + n) :
    s.TakesBoundary (s.runClock n) c (c.millis + n - s.cfg.intervalLength * 60000) := by
  have boundary : s.runClock n = s.boundary (c.millis + n - s.intervalMillis) := by
    unfold State.runClock; rw [set]; exact if_neg (Nat.not_lt.mpr reached)
  rw [boundary]; exact boundary_takesBoundary set _

theorem runClockUpTo_of_within {n : Nat}
    (h : ∀ c, s.tb.clock = some c → c.millis + n ≤ s.cfg.intervalLength * 60000) :
    s.runClockUpTo n = s.withTb
      { s.tb with clock := s.tb.clock.map fun c => { interval := c.interval, millis := c.millis + n } } := by
  unfold State.runClockUpTo; split
  · next unset => rw [unset]; exact (congrArg s.withTb (by rw [Option.map_none, ← unset])).symm
  · next c set => rw [set]; exact if_pos (h c set)

theorem runClockUpTo_takesBoundary {n : Nat} {c : Clock} (set : s.tb.clock = some c)
    (passed : s.cfg.intervalLength * 60000 < c.millis + n) :
    s.TakesBoundary (s.runClockUpTo n) c (c.millis + n - s.cfg.intervalLength * 60000) := by
  have boundary : s.runClockUpTo n = s.boundary (c.millis + n - s.intervalMillis) := by
    unfold State.runClockUpTo; rw [set]; exact if_neg (Nat.not_le.mpr passed)
  rw [boundary]; exact boundary_takesBoundary set _

theorem runClock_tb (s : State) (n : Nat) : (s.runClock n).tb = { s.tb with clock := (s.runClock n).tb.clock } := by
  unfold State.runClock; split
  · rfl
  · split
    · rfl
    · exact boundary_tb _ _

theorem runClockUpTo_tb (s : State) (n : Nat) : (s.runClockUpTo n).tb = { s.tb with clock := (s.runClockUpTo n).tb.clock } := by
  unfold State.runClockUpTo; split
  · rfl
  · split
    · rfl
    · exact boundary_tb _ _

theorem passTime_of_noBoundary {n : Nat} (h : s.noBoundary n) :
    s.passTime n = s.withTb
      { s.tb with
        phase := s.tb.phase + n
        clock := s.tb.clock.map fun c => { interval := c.interval, millis := c.millis + n } } :=
  runClock_of_noBoundary (s := s.withTb { s.tb with phase := s.tb.phase + n }) h

theorem passTime_takesBoundary {n : Nat} {c : Clock} (set : s.tb.clock = some c) (reached : s.cfg.intervalLength * 60000 ≤ c.millis + n) :
    s.TakesBoundary (s.passTime n) c (c.millis + n - s.cfg.intervalLength * 60000) :=
  takesBoundary_of_withTb (b := { s.tb with phase := s.tb.phase + n }) rfl
    (runClock_takesBoundary (s := s.withTb { s.tb with phase := s.tb.phase + n }) set reached)

theorem passTime_tb (s : State) (n : Nat) :
    (s.passTime n).tb = { s.tb with phase := s.tb.phase + n, clock := (s.passTime n).tb.clock } :=
  runClock_tb (s.withTb { s.tb with phase := s.tb.phase + n }) n

/-! ### An idle step -/

theorem sendNotice_settled (h : s.settled) : s.sendNotice.settled :=
  ⟨h.1, fun e => by
    have same : s.sendNotice.isDue e = s.isDue e := by cases e <;> rfl
    rw [same]; exact h.2 e⟩

/-- Settles O2: with an empty queue the step is `State.passMillisecond`; in a settled second that is one millisecond of the clock. -/
theorem idleStepPassesAMillisecond : Obligations.IdleStepPassesAMillisecond := by
  intro s empty
  have idle : step s = .next s.passMillisecond := by unfold step; rw [empty]
  refine ⟨fun last => ?_, fun settled within => ⟨_, idle, ?_⟩⟩
  · have tick : s.passMillisecond = s.sendNotice.takeTick := if_neg (Nat.not_lt.mpr last)
    rw [idle, tick]; rfl
  · have passed : s.passMillisecond = s.sendNotice.passTime 1 := by
      have goesOn : s.passMillisecond = s.sendNotice.finishInstant.passTime 1 := if_pos within
      rw [goesOn, finishInstant_settled (sendNotice_settled settled)]
    rw [passed]
    refine ⟨(frame_pending (passTime_frame _ _)).trans empty, passTime_tb _ _, fun none => ?_, fun c set reached => ?_⟩
    · rw [passTime_of_noBoundary (s := s.sendNotice) none]
      exact ⟨onlyChanges_trans (onlyChanges_mono (setPort_frame s .tp _) (by decide)) (onlyChanges_mono (withTb_frame _ _) (by decide)),
        rfl, port_setPort s .tp _⟩
    · exact passTime_takesBoundary (s := s.sendNotice) set reached

/-! ### The end of a second -/

theorem nextTick_tb (s : State) (o : Bool) :
    (s.nextTick o).tb.count = s.tb.count + 1 ∧ (s.nextTick o).tb.phase = 0 ∧ (s.nextTick o).tb.tickOpen = o := by
  refine ⟨?_, rfl, rfl⟩
  show (s.finishInstant.passTime (secondMillis - s.finishInstant.tb.phase)).tb.count + 1 = _
  rw [passTime_tb, (finishInstant_sameInstant s).count]

theorem endSecond_tb (s : State) :
    s.endSecond.tb.count = s.tb.count + 1 ∧ s.endSecond.tb.phase = 0 ∧ s.endSecond.tb.tickOpen = false := by
  refine ⟨?_, rfl, rfl⟩
  show (s.finishInstant.runClockUpTo (secondMillis - s.finishInstant.tb.phase)).tb.count + 1 = _
  rw [runClockUpTo_tb, (finishInstant_sameInstant s).count]

/-- The state with the count moved on, the second at its start and `n` milliseconds added to the clock (R38, R39). -/
def movedOn (s : State) (n : Nat) (o : Bool) : State :=
  s.withTb
    { count := s.tb.count + 1, phase := 0, tickOpen := o, nextLoss := s.tb.nextLoss
      clock := s.tb.clock.map fun c => { interval := c.interval, millis := c.millis + n } }

theorem nextTick_of_settled (settled : s.settled) (o : Bool) :
    s.nextTick o = (s.passTime (1000 - s.tb.phase)).withTb
      { (s.passTime (1000 - s.tb.phase)).tb with count := (s.passTime (1000 - s.tb.phase)).tb.count + 1, phase := 0, tickOpen := o } := by
  unfold State.nextTick
  dsimp only
  rw [finishInstant_settled settled]
  rfl

theorem endSecond_of_settled (settled : s.settled) :
    s.endSecond = (s.runClockUpTo (1000 - s.tb.phase)).withTb
      { (s.runClockUpTo (1000 - s.tb.phase)).tb with
        count := (s.runClockUpTo (1000 - s.tb.phase)).tb.count + 1, phase := 0, tickOpen := false } := by
  unfold State.endSecond
  dsimp only
  rw [finishInstant_settled settled]
  rfl

theorem nextTick_of_noBoundary (settled : s.settled) (none : s.noBoundary (1000 - s.tb.phase)) (o : Bool) :
    s.nextTick o = movedOn s (1000 - s.tb.phase) o := by
  rw [nextTick_of_settled settled, passTime_of_noBoundary none]; rfl

theorem endSecond_of_within (settled : s.settled)
    (h : ∀ c, s.tb.clock = some c → c.millis + (1000 - s.tb.phase) ≤ s.cfg.intervalLength * 60000) :
    s.endSecond = movedOn s (1000 - s.tb.phase) false := by
  rw [endSecond_of_settled settled, runClockUpTo_of_within h]; rfl

theorem staleDue_le_iff :
    s.isDue .stale = true ↔ s.tb.phase = 0 ∧ s.inv.metering = .fresh ∧ ∃ c, s.settings = some c ∧ s.inv.lastMeter + c.staleLimit ≤ s.now := by
  unfold State.isDue State.dueAt State.staleDue
  cases s.settings with
  | none => simp
  | some c =>
    dsimp only
    by_cases fresh : s.inv.metering = .fresh
    · by_cases start : s.tb.phase = 0
      · simp [fresh, start]
      · simp [fresh, start]
    · simp [fresh]

/-- Settles O3: the second ends once its instant is complete; a boundary that the rest of it passes is `State.TakesBoundary`'s. -/
theorem ticksEndTheSecond : Obligations.TicksEndTheSecond := by
  refine ⟨fun s o => ?_, fun s e => ?_, fun s e never => ?_⟩
  · dsimp only
    refine ⟨nextTick_tb s o, endSecond_tb s, fun settled none => ?_, fun c settled set => ⟨fun reached => ?_, fun meets => ?_, fun passed => ?_⟩⟩
    · rw [nextTick_of_noBoundary settled none, endSecond_of_within settled fun c set => (none c set).le]
      exact ⟨⟨withTb_frame s _, rfl⟩, withTb_frame s _, rfl⟩
    · rw [nextTick_of_settled settled]
      exact takesBoundary_withTb (passTime_takesBoundary set reached) rfl
    · rw [endSecond_of_within settled fun c' set' => by cases set.symm.trans set'; exact meets.le]
      exact ⟨withTb_frame s _, rfl⟩
    · rw [endSecond_of_settled settled]
      exact takesBoundary_withTb (runClockUpTo_takesBoundary set passed) rfl
  · cases e with
    | stale => exact staleDue_le_iff
    | loss => exact decide_eq_true_iff
    | prune x =>
      unfold State.isDue State.dueAt
      cases h : (s.train x).history <;> simp [h, startHistoryAge]
    | minDown x => unfold State.isDue State.dueAt; dsimp only; cases (s.train x).minDown.expiry <;> simp
    | minRun x => unfold State.isDue State.dueAt; dsimp only; cases (s.train x).minRun.expiry <;> simp
    | start x => unfold State.isDue State.dueAt; dsimp only; cases (s.train x).start.expiry <;> simp
    | stop x => unfold State.isDue State.dueAt; dsimp only; cases (s.train x).stop.expiry <;> simp
    | cooldown x => unfold State.isDue State.dueAt; dsimp only; cases (s.train x).cooldown.expiry <;> simp
    | permitHold => unfold State.isDue State.dueAt; dsimp only; cases s.trc.permitHold <;> simp
    | dwell => unfold State.isDue State.dueAt; dsimp only; cases s.du.dwell <;> simp
    | linkLoss => unfold State.isDue State.dueAt; dsimp only; cases s.rsv.linkTimer <;> simp
    | activationHold => unfold State.isDue State.dueAt; dsimp only; cases s.rsv.holdTimer <;> simp
    | background => unfold State.isDue State.dueAt; dsimp only; cases s.prof.background <;> simp
  · rw [exec_row, atEvent_none never]

/-! ### Resets -/

theorem afterReset_holdsResetValues (working stored : Image) (lines : PerTrain Bool) (draws : Nat) (pending : List Instr) :
    (State.afterReset working stored lines draws pending).HoldsResetValues lines where
  inventory := rfl
  settings := rfl
  time := rfl
  book := rfl
  engine := rfl
  trains x := by cases x <;> rfl
  generation := rfl
  permitHold := rfl
  permits x := rfl
  dispatch := rfl
  reserve := rfl
  settlement := rfl
  bad := rfl
  lastCheck := rfl
  failingField := rfl
  activity := rfl
  mode := rfl
  background := rfl
  siteCode := rfl
  ports p := by cases p <;> rfl
  errorLimit := rfl
  held := rfl
  fault := rfl

theorem storedAtReset_of_idle (h : ∀ source, s.prof.activity ≠ .storing source) : s.storedAtReset = s.prof.stored := by
  unfold State.storedAtReset; split
  · next source storing => exact absurd storing (h source)
  · rfl

theorem exec_pinReset {low : Nat} (long : 10 ≤ low) (lines : PerTrain Bool) :
    exec (.pinReset low lines) s = .next (s.holdReset.endReset s.prof.working lines) :=
  congrArg Host.Outcome.next (if_pos long)

/-- Settles O4. -/
theorem resetsLeaveTheResetValues : Obligations.ResetsLeaveTheResetValues := by
  intro s lines
  refine ⟨⟨_, rfl, afterReset_holdsResetValues .., rfl, rfl, fun idle => storedAtReset_of_idle (s := s) idle⟩,
    fun low => ⟨fun short => congrArg Host.Outcome.next (if_neg (Nat.not_le.mpr short)), fun long => ?_⟩⟩
  exact ⟨_, exec_pinReset long lines, afterReset_holdsResetValues .., rfl, rfl, fun idle => storedAtReset_of_idle (s := s) idle⟩

/-! ### An interrupted store -/

theorem storedAtReset_of_storing {source : Image} (storing : s.prof.activity = .storing source) :
    s.storedAtReset = interruptedStore s.draws source s.prof.stored := by
  unfold State.storedAtReset; rw [storing]

/-- The image that a store leaves when it is interrupted before its third step (R164). -/
def mixedImage (draw : Nat) (source stored : Image) : Image :=
  Vector.ofFn fun i : Fin 158 =>
    if i.val = 157 then allOnes else if Config.storeReached draw (i.val + 1) then source.get i else stored.get i

theorem interruptedStore_eq (draw : Nat) (source stored : Image) :
    interruptedStore draw source stored = if Config.storeFinished draw then source else mixedImage draw source stored := rfl

theorem word_eq (image : Image) {id : Nat} (bounds : id - 1 < 158) : image.word id = image.get ⟨id - 1, bounds⟩ := by
  unfold Image.word
  rw [List.getD_eq_getElem?_getD, List.getElem?_eq_getElem (by simpa using bounds)]
  rfl

theorem word_ofFn (f : Fin 158 → Word) {id : Nat} (bounds : id - 1 < 158) : Image.word (Vector.ofFn f) id = f ⟨id - 1, bounds⟩ := by
  rw [word_eq _ bounds]; exact Vector.getElem_ofFn ..

/-- A check word of all ones is no CRC-16 (R159, R164). -/
theorem failingField_of_allOnes {image : Image} (ones : image.word 158 = allOnes) : failingField image ≠ none := fun passed => by
  have ok : (inRange 0 65535 (image.field 158) && decide (image.field 158 = (crc16 image).toNat)) = true :=
    fieldOk_of_failingField_eq_none passed (id := 158) (by decide) (by decide)
  have small := (inRange_bounds ((Bool.and_eq_true _ _).mp ok).1).2
  have value : image.field 158 = 4294967295 := by unfold Image.field; rw [ones]; rfl
  omega

theorem mixedImage_word_last (draw : Nat) (source stored : Image) : (mixedImage draw source stored).word 158 = allOnes :=
  (word_ofFn _ (by decide)).trans (if_pos rfl)

theorem mixedImage_word (draw : Nat) (source stored : Image) {id : Nat} (first : 1 ≤ id) (last : id ≤ 157) :
    (mixedImage draw source stored).word id = source.word id ∨ (mixedImage draw source stored).word id = stored.word id := by
  have bounds : id - 1 < 158 := by omega
  have other : ¬ (⟨id - 1, bounds⟩ : Fin 158).val = 157 := by dsimp only; omega
  unfold mixedImage
  rw [word_ofFn _ bounds, word_eq source bounds, word_eq stored bounds, if_neg other]
  split
  · exact .inl rfl
  · exact .inr rfl

/-- What an interrupted store leaves (R164). -/
theorem interruptedStore_cases (draw : Nat) (source stored : Image) :
    interruptedStore draw source stored = source ∨
      ((interruptedStore draw source stored).word 158 = 4294967295#32 ∧
        (∀ id, 1 ≤ id → id ≤ 157 →
          (interruptedStore draw source stored).word id = source.word id ∨
            (interruptedStore draw source stored).word id = stored.word id) ∧
        failingField (interruptedStore draw source stored) ≠ none) := by
  rw [interruptedStore_eq]
  split
  · exact .inl rfl
  · have ones := mixedImage_word_last draw source stored
    exact .inr ⟨ones, fun id first last => mixedImage_word draw source stored first last, failingField_of_allOnes ones⟩

/-- Settles O5: whichever image the free values leave, it is the new one or such a mixture. -/
theorem resetDuringAStoreLeavesAMixture : Obligations.ResetDuringAStoreLeavesAMixture := by
  intro s lines source low storing long
  refine ⟨_, _, rfl, exec_pinReset long lines, afterReset_holdsResetValues .., afterReset_holdsResetValues .., rfl, rfl, rfl, rfl, rfl,
    ?_⟩
  have left : (s.holdReset.endReset s.storedAtReset lines).prof.stored = interruptedStore s.draws source s.prof.stored :=
    storedAtReset_of_storing storing
  rw [left]
  exact interruptedStore_cases s.draws source s.prof.stored

/-- Settles O55. -/
theorem invariantsHoldAtReset : Obligations.InvariantsHoldAtReset :=
  ⟨afterReset_inventorySafe .., afterReset_scheduleSafe .., afterReset_dispatchSafe .., afterReset_portsSafe ..,
    timeSafe_of (afterReset_timely (fun _ => False) ..) (fun later => False.elim (Nat.lt_irrefl 0 later)) (Nat.zero_le _)
      ⟨nofun, nofun⟩⟩

/-! ### The output pins -/

theorem active_iff (x : TrainState) : x.active = true ↔ x = .starting ∨ x = .running ∨ x = .stopping := by cases x <;> decide

theorem pins_of_held (held : s.resetHeld = true) :
    s.pins =
      { permitHigh := PerTrain.of fun _ => false, attnLow := fun _ => false, tx := fun _ => .idleHigh, faultLow := true } := if_pos held

theorem pins_of_running (running : s.resetHeld = false) :
    s.pins = { permitHigh := PerTrain.of s.permit, attnLow := s.attention, tx := s.txLine, faultLow := s.faultLine } := by
  unfold State.pins; rw [running]; rfl

/-- Settles O6. -/
theorem outputPinsFollowTheState : Obligations.OutputPinsFollowTheState := by
  refine ⟨fun s => rfl, fun s held => ?_, fun s running => ?_, rfl, fun f rest => rfl, fun bytes => rfl, fun kind payload => rfl⟩
  · rw [pins_of_held held]
    exact ⟨fun x => PerTrain.get_of _ x, fun p => ⟨rfl, rfl⟩, rfl⟩
  · rw [pins_of_running running]
    refine ⟨fun x => ?_, fun p => decide_eq_true_iff, ?_, fun p empty => if_pos empty, fun p f rest queued => ?_⟩
    · rw [PerTrain.get_of, permit_eq, Bool.and_eq_true, decide_eq_true_iff, active_iff]
    · show (decide (s.prof.mode = .faulted) || s.prof.bad) = true ↔ _
      rw [Bool.or_eq_true, decide_eq_true_iff]
    · show s.txLine p = _
      unfold State.txLine
      rw [if_neg (by rw [queued]; nofun), queued, sentLine_cons, frame_line_eq]

end Sys2Proof.Proofs
end

section
/-! The station ports: the status byte and the requests of every port (O7, O12), the frame assembler (O8), frames while a response is owed,
of unknown kind or wrong length (O9, O10), and the end of a response (O11). -/

namespace Sys2Proof.Proofs
open Sys2Proof Sys2Proof.Machine

variable {s t : State}

/-! ### Requests that only answer -/

/-- A request whose effect, once taken, is its response. -/
theorem onlyAnswers_of {c : Instr} {p : Port} {k : Byte} {r : Result} {f : List Byte} {act : State → State} (free : s.free p)
    (takes : exec c s = .next (s.takeFrame p act)) (acts : act (s.taken p) = (s.taken p).respond p k r f) : s.onlyAnswers c p k r f :=
  ⟨_, takes.trans (congrArg Host.Outcome.next ((takeFrame_free free act).trans acts)), reply_taken_frame s p k r f, rfl,
    reply_taken s p k r f⟩

/-! ### The status byte (R181) -/

/-- The status byte as it is laid out in R181. -/
def statusOf (resetSeen attention : Bool) (mode : Mode) (anchored drifted stale busy : Bool) : Byte :=
  BitVec.ofNat 8 (resetSeen.toNat * 128 + attention.toNat * 64 + mode.code * 16 + anchored.toNat * 8 + drifted.toNat * 4 + stale.toNat * 2 +
    busy.toNat)

theorem statusByte_eq (s : State) (p : Port) :
    s.statusByte p = statusOf (s.port p).resetSeen (s.attention p) s.prof.mode s.inv.status.anchored (decide (s.inv.status = .drifted))
      (decide (s.inv.metering = .stale)) s.engineBusy := rfl

theorem statusOf_bits (resetSeen attention : Bool) (mode : Mode) (anchored drifted stale busy : Bool) :
    let b := statusOf resetSeen attention mode anchored drifted stale busy
    b.getLsbD 7 = resetSeen ∧ b.getLsbD 6 = attention ∧
      b.extractLsb' 4 2 = (match mode with | .checking => 0#2 | .maintenance => 1#2 | .service => 2#2 | .faulted => 3#2) ∧
      b.getLsbD 3 = anchored ∧ b.getLsbD 2 = drifted ∧ b.getLsbD 1 = stale ∧ b.getLsbD 0 = busy := by
  cases mode <;> revert resetSeen attention anchored drifted stale busy <;> decide

theorem anchored_eq (x : InventoryStatus) : x.anchored = decide (x = .tracking ∨ x = .drifted) := by cases x <;> rfl

/-- Taking a frame leaves what the fields of a STATUS response show. -/
theorem statusFields_taken (s : State) (p : Port) : (s.taken p).statusFields p = s.statusFields p := by
  have causes (q : Port) : ((s.taken p).port q).causes = (s.port q).causes := by
    by_cases same : q = p
    · subst same; rw [port_taken]
    · rw [port_taken_ne s p q same]
  unfold State.statusFields
  rw [causes, causes, causes, port_taken]
  rfl

theorem statusFields_eq (s : State) (p : Port) :
    s.statusFields p =
      u16 s.prof.siteCode ++ u8 s.prof.mode.code ++ yesNo s.prof.bad ++ u8 s.prof.lastCheck.code ++
        u8 s.prof.failingField ++ u8 s.prof.activity.code ++ u8 (if s.tb.clock = none then 1 else 2) ++
        u32 ((s.tb.clock.map Clock.interval).getD 0) ++
        [(s.port .pp).causes, (s.port .tp).causes, (s.port .gp).causes] ++ u8 (s.port p).errors ++
        u8 (if s.prof.bad then 16 else (s.settings.map Settings.portErrorLimit).getD 16) ++
        (if p = .tp then u8 s.prj.checkMode.code else []) := by
  have clock : clockStateCode s.tb.clock = if s.tb.clock = none then 1 else 2 := by
    unfold clockStateCode; cases s.tb.clock <;> rfl
  unfold State.statusFields
  rw [errorLimit_eq, clock]
  rfl

/-- Settles O7. -/
theorem statusShowsTheState : Obligations.StatusShowsTheState := by
  intro s p
  obtain ⟨seen, attention, mode, anchored, drifted, stale, busy⟩ := statusOf_bits (s.port p).resetSeen (s.attention p) s.prof.mode
    s.inv.status.anchored (decide (s.inv.status = .drifted)) (decide (s.inv.metering = .stale)) s.engineBusy
  rw [statusByte_eq]
  refine ⟨seen, attention, mode, anchored.trans (anchored_eq _), drifted, stale, busy, fun free => ?_⟩
  rw [← statusFields_eq]
  exact onlyAnswers_of (c := .status p) free rfl (by rw [statusFields_taken])

/-! ### Whole frames -/

/-- What a POLL does once taken, with the link state that it reports (R145). -/
def answerPoll (link : Link) (u : State) : State :=
  u.respond .gp 0x31#8 .ok
    (u8 link.code ++ u16 u.rsv.lossCount.toNat ++ s32 u.rsv.granted ++ u.bandBytes ++ s32 u.du.target ++ s32 u.du.metered ++
      u32 u.currentInterval)

theorem exec_poll (s : State) : exec .poll s = .next (s.takeFrame .gp (answerPoll s.rsv.link)) := rfl

/-- A command that is a good frame on a port is the taking of that frame; what it then does looks at most at the Reserve Unit as it was
before the frame. -/
theorem goodFrame_takes {c : Instr} {p : Port} (well : c.wellFormed = true)
    (frame : (∃ kind payload, requestOf c = some (p, kind, payload)) ∨ (∃ kind, c = .unknownKind p kind) ∨
      ∃ kind length, c = .badLength p kind length) (s : State) :
    ∃ act, ∀ u : State, u.rsv = s.rsv → exec c u = .next (u.takeFrame p act) := by
  rcases frame with ⟨kind, payload, request⟩ | ⟨kind, rfl⟩ | ⟨kind, length, rfl⟩
  · cases c
    case declareAvailable =>
      cases request
      exact ⟨_, fun u _ => congrArg Host.Outcome.next (if_pos well)⟩
    case poll =>
      cases request
      exact ⟨answerPoll s.rsv.link, fun u same => by rw [exec_poll, same]⟩
    all_goals cases request
    all_goals exact ⟨_, fun u _ => rfl⟩
  · exact ⟨_, fun u _ => congrArg Host.Outcome.next (if_pos well)⟩
  · exact ⟨_, fun u _ => congrArg Host.Outcome.next (if_pos well)⟩

/-- Settles O9: the frame is one that `State.takeFrame` counts. -/
theorem framesWhileAResponseIsOwedAreDiscarded : Obligations.FramesWhileAResponseIsOwedAreDiscarded := by
  intro s c p owed well frame
  obtain ⟨act, takes⟩ := goodFrame_takes well frame s
  refine ⟨_, takes s rfl, ?_⟩
  cases doing : (s.port p).assembler with
  | waiting =>
    rw [takeFrame_owed doing owed, countError_eq]
    exact ⟨setPort_frame s p _, fun _ => port_setPort s p _, nofun⟩
  | inFrame bytes =>
    have cut : ((s.cutOff p).port p).owed = true := by rw [port_cutOff]; exact owed
    rw [takeFrame_inFrame doing, takeFrame_owed (cutOff_waiting s p) cut, countError_eq]
    exact ⟨onlyChanges_trans (setPort_frame s p _) (setPort_frame _ p _), nofun, fun _ _ => port_setPort _ p _⟩

theorem shownStatus_eq {p : Port} (u : State) (seen : (u.port p).resetSeen = (s.port p).resetSeen)
    (causes : (t.port p).causes = (u.port p).causes) (enables : (t.port p).enables = (u.port p).enables) (prj : t.prj = u.prj)
    (mode : t.prof.mode = u.prof.mode) (inv : t.inv = u.inv) : s.shownStatus t p = u.statusByte p := by
  unfold State.shownStatus
  apply statusByte_congr
  · rw [port_setPort]; exact seen.symm
  · rw [port_setPort]; exact causes
  · rw [port_setPort]; exact enables
  · exact prj
  · exact mode
  · exact inv

/-- Settles O10. -/
theorem unknownKindAndBadLengthAreAnswered : Obligations.UnknownKindAndBadLengthAreAnswered := by
  intro s p free
  refine ⟨fun kind unknown => ?_, fun kind length n known wrong short => ?_⟩
  · have well : (Instr.unknownKind p kind).wellFormed = true := by
      show (catalogue p kind).isNone = true
      rw [unknown]; rfl
    refine ⟨(s.taken p).respond p 0x7F#8 .unknownKind [], ?_, reply_taken s p _ _ _, reply_taken_frame s p _ _ _, rfl⟩
    exact congrArg Host.Outcome.next ((if_pos well).trans (takeFrame_free free _))
  · have well : (Instr.badLength p kind length).wellFormed = true := by
      simp only [Instr.wellFormed, known, Bool.and_eq_true, decide_eq_true_eq]
      exact ⟨wrong, short⟩
    refine ⟨((s.taken p).countError p).respond p kind .badLength [], congrArg Host.Outcome.next ((if_pos well).trans (takeFrame_free free _)),
      ?_, respond_frame_of (onlyChanges_trans (taken_frame s p) (onlyChanges_mono (countError_frame _ p) (portPart_mem p)))
        (portPart_mem p _ (List.mem_singleton_self _)) _ _ _, ?_⟩
    · have shown : s.shownStatus (((s.taken p).countError p).respond p kind .badLength []) p = ((s.taken p).countError p).statusByte p :=
        shownStatus_eq _ (by rw [port_countError, port_taken]) (by rw [port_respond]) (by rw [port_respond]) rfl rfl rfl
      rw [shown, port_respond, port_countError, port_taken]
      rfl
    · show ((s.taken p).countError p).rsv = _
      rw [countError_eq]; rfl

/-! ### The end of a response -/

theorem afterResponse_append {notices : List Frame} (kinds : ∀ f ∈ notices, f.kind = noticeKind) {response : Frame}
    (answers : response.kind ≠ noticeKind) (rest : List Frame) : afterResponse (notices ++ response :: rest) = rest := by
  induction notices with
  | nil => exact if_neg answers
  | cons f fs ih =>
    have first : afterResponse (f :: fs ++ response :: rest) = afterResponse (fs ++ response :: rest) :=
      if_pos (kinds f (List.mem_cons_self ..))
    exact first.trans (ih fun g hg => kinds g (List.mem_cons_of_mem _ hg))

theorem holdsResponse_iff {output : List Frame} : holdsResponse output = true ↔ ∃ f ∈ output, f.kind ≠ noticeKind := by
  unfold holdsResponse; simp

theorem exec_responseSent (p : Port) :
    exec (.responseSent p) s = .next
      (if (s.port p).owed && holdsResponse (s.port p).output then
        s.setPort p { s.port p with owed := false, output := afterResponse (s.port p).output }
      else s) := rfl

/-- Settles O11. -/
theorem responseSentFreesThePort : Obligations.ResponseSentFreesThePort := by
  intro s p
  refine ⟨fun notices response rest owed queued kinds answers => ?_, fun kinds => ?_⟩
  · have holds : holdsResponse (s.port p).output = true :=
      holdsResponse_iff.mpr ⟨response, by rw [queued]; exact List.mem_append_right _ (List.mem_cons_self ..), answers⟩
    refine ⟨s.setPort p { s.port p with owed := false, output := afterResponse (s.port p).output }, ?_, setPort_frame s p _, ?_⟩
    · rw [exec_responseSent, owed, holds]; rfl
    · rw [port_setPort, queued, afterResponse_append kinds answers]
  · have none : holdsResponse (s.port p).output = false :=
      Bool.eq_false_iff.mpr fun holds => by
        obtain ⟨f, queued, answers⟩ := holdsResponse_iff.mp holds
        exact answers (kinds f queued)
    rw [exec_responseSent, none, Bool.and_false]
    rfl

/-! ### CAUSES, ENABLES and CLEAR LINK -/

theorem exec_causes {p : Port} (free : s.free p) :
    exec (.causes p) s = .next (((s.taken p).respond p 0x02#8 .ok [((s.taken p).port p).causes]).setPort p
      { ((s.taken p).respond p 0x02#8 .ok [((s.taken p).port p).causes]).port p with
        causes := (((s.taken p).respond p 0x02#8 .ok [((s.taken p).port p).causes]).port p).causes &&& ~~~((s.taken p).port p).causes }) :=
  congrArg Host.Outcome.next (takeFrame_free free _)

theorem exec_enables {p : Port} (free : s.free p) (mask : Byte) :
    exec (.enables p mask) s = .next (((s.taken p).setPort p { (s.taken p).port p with enables := mask &&& causeBits p }).respond p 0x03#8 .ok
      [((s.taken p).setPort p { (s.taken p).port p with enables := mask &&& causeBits p }).enablesInForce p]) :=
  congrArg Host.Outcome.next (takeFrame_free free _)

theorem exec_clearLink {p : Port} (free : s.free p) :
    exec (.clearLink p) s = .next (((s.taken p).respond p 0x04#8 .ok (u8 ((s.taken p).port p).errors)).setPort p
      { ((s.taken p).respond p 0x04#8 .ok (u8 ((s.taken p).port p).errors)).port p with errors := 0 }) :=
  congrArg Host.Outcome.next (takeFrame_free free _)

theorem writable_eq (p : Port) (mask : Byte) : mask &&& causeBits p = if p = .gp then mask &&& 0x0F#8 else mask := by
  cases p
  · exact BitVec.and_allOnes
  · exact BitVec.and_allOnes
  · rfl

/-- What a request may change that answers, and changes its port alone besides. -/
theorem setPort_reply_frame (p : Port) (k : Byte) (r : Result) (f : List Byte) (x : PortState) :
    s.onlyChanges (((s.taken p).respond p k r f).setPort p x) (frameParts p) :=
  onlyChanges_trans (reply_taken_frame s p k r f) (onlyChanges_mono (setPort_frame _ p x) (portPart_mem p))

/-- Settles O12. -/
theorem causeAndErrorRequestsAreAnswered : Obligations.CauseAndErrorRequestsAreAnswered := by
  intro s p free
  have waiting := free.1
  refine ⟨⟨_, exec_causes free, setPort_reply_frame p _ _ _ _, rfl, ?_, ?_⟩, fun mask => ⟨_, exec_enables free mask, ?_, rfl, ?_⟩,
    ⟨_, exec_clearLink free, setPort_reply_frame p _ _ _ _, rfl, ?_⟩⟩
  · unfold State.attention
    rw [port_setPort, port_respond, port_taken]
    simp
  · rw [port_setPort, port_respond, port_taken, statusByte_taken]
    simp [Result.code]
  · exact respond_frame_of (onlyChanges_trans (taken_frame s p) (onlyChanges_mono (setPort_frame _ p _) (portPart_mem p)))
      (portPart_mem p _ (List.mem_singleton_self _)) _ _ _
  · have shown : s.shownStatus (((s.taken p).setPort p { (s.taken p).port p with enables := mask &&& causeBits p }).respond p 0x03#8 .ok
        [((s.taken p).setPort p { (s.taken p).port p with enables := mask &&& causeBits p }).enablesInForce p]) p =
        ((s.taken p).setPort p { (s.taken p).port p with enables := mask &&& causeBits p }).statusByte p :=
      shownStatus_eq _ (by rw [port_setPort, port_taken]) (by rw [port_respond]) (by rw [port_respond]) rfl rfl rfl
    have inForce : ((s.taken p).setPort p { (s.taken p).port p with enables := mask &&& causeBits p }).enablesInForce p =
        if p = .gp then mask &&& 0x0F#8 else if p = .tp ∧ s.prj.checkMode = .notify then mask ||| 0x01#8 else mask := by
      unfold State.enablesInForce
      rw [port_setPort, writable_eq]
      cases p <;> simp [Cause.mask]
    rw [shown, inForce, port_respond, port_setPort, port_taken, writable_eq]
    rfl
  · have shown (u : State) (h : u = ((s.taken p).respond p 0x04#8 .ok (u8 ((s.taken p).port p).errors)).setPort p
        { ((s.taken p).respond p 0x04#8 .ok (u8 ((s.taken p).port p).errors)).port p with errors := 0 }) :
        s.shownStatus u p = s.statusByte p := by
      subst h
      refine shownStatus_eq _ rfl ?_ ?_ rfl rfl rfl
      · rw [port_setPort, port_respond, port_taken]
      · rw [port_setPort, port_respond, port_taken]
    rw [shown _ rfl, port_setPort, port_respond, port_taken, statusByte_taken]
    rfl

end Sys2Proof.Proofs
end

section
/-! The receive line: what the reader makes of a line's bytes (O8, O13) and what the assembler does event by event (O8). -/

namespace Sys2Proof.Proofs
open Sys2Proof Sys2Proof.Machine

variable {s t : State}

/-! ### Numbers as bytes (R178) -/

theorem beValue_cons (b : Byte) (l : List Byte) (a : Nat) :
    (b :: l).foldl (fun acc x => acc * 256 + x.toNat) a = l.foldl (fun acc x => acc * 256 + x.toNat) (a * 256 + b.toNat) := rfl

/-- Reading back the bytes of a number gives its low digits to the base 256, above what was read before. -/
theorem foldl_beBytes (n : Nat) : ∀ k a : Nat,
    (beBytes k n).foldl (fun acc b => acc * 256 + b.toNat) a = a * 256 ^ k + n % 256 ^ k
  | 0, a => by simp [beBytes, Nat.mod_one]
  | k + 1, a => by
    have digit : (BitVec.ofNat 8 (n / 256 ^ k)).toNat = n / 256 ^ k % 256 := BitVec.toNat_ofNat ..
    rw [beBytes, beValue_cons, foldl_beBytes n k, digit, Nat.pow_succ, Nat.mod_mul]
    ring

theorem beValue_beBytes (k n : Nat) : beValue (beBytes k n) = n % 256 ^ k := by
  unfold beValue; rw [foldl_beBytes]; omega

/-- A field at the front of a payload. -/
theorem fieldAt_front (k n : Nat) (l : List Byte) : fieldAt (beBytes k n ++ l) 0 k = n % 256 ^ k := by
  unfold fieldAt
  rw [List.drop_zero, List.take_left' (length_beBytes k n), beValue_beBytes]

/-- A field behind the first `m` bytes. -/
theorem fieldAt_behind (m n off k : Nat) (l : List Byte) (behind : m ≤ off) : fieldAt (beBytes m n ++ l) off k = fieldAt l (off - m) k := by
  unfold fieldAt
  rw [List.drop_append, length_beBytes, List.drop_eq_nil_of_le (by rw [length_beBytes]; exact behind), List.nil_append]

@[simp] theorem byteAt_front (b : Byte) (l : List Byte) : byteAt (beBytes 1 b.toNat ++ l) 0 = b := by
  unfold byteAt; rw [fieldAt_front, show b.toNat % 256 ^ 1 = b.toNat from Nat.mod_eq_of_lt b.isLt, BitVec.ofNat_toNat, BitVec.setWidth_eq]

theorem byteAt_cons (b : Byte) (l : List Byte) : byteAt (b :: l) 0 = b := by
  have bytes : b :: l = beBytes 1 b.toNat ++ l := by simp [beBytes]
  rw [bytes, byteAt_front]

@[simp] theorem halfAt_front (h : Half) (l : List Byte) : halfAt (beBytes 2 h.toNat ++ l) 0 = h := by
  unfold halfAt; rw [fieldAt_front, show h.toNat % 256 ^ 2 = h.toNat from Nat.mod_eq_of_lt h.isLt, BitVec.ofNat_toNat, BitVec.setWidth_eq]

@[simp] theorem wordAt_front (w : Word) (l : List Byte) : wordAt (beBytes 4 w.toNat ++ l) 0 = w := by
  unfold wordAt; rw [fieldAt_front, show w.toNat % 256 ^ 4 = w.toNat from Nat.mod_eq_of_lt w.isLt, BitVec.ofNat_toNat, BitVec.setWidth_eq]

@[simp] theorem byteAt_last (b : Byte) : byteAt (beBytes 1 b.toNat) 0 = b := by
  rw [← List.append_nil (beBytes 1 b.toNat)]; exact byteAt_front b []

@[simp] theorem halfAt_last (h : Half) : halfAt (beBytes 2 h.toNat) 0 = h := by
  rw [← List.append_nil (beBytes 2 h.toNat)]; exact halfAt_front h []

@[simp] theorem wordAt_last (w : Word) : wordAt (beBytes 4 w.toNat) 0 = w := by
  rw [← List.append_nil (beBytes 4 w.toNat)]; exact wordAt_front w []

theorem byteAt_behind (m n off : Nat) (l : List Byte) (behind : m ≤ off) : byteAt (beBytes m n ++ l) off = byteAt l (off - m) := by
  unfold byteAt; rw [fieldAt_behind _ _ _ _ _ behind]

theorem halfAt_behind (m n off : Nat) (l : List Byte) (behind : m ≤ off) : halfAt (beBytes m n ++ l) off = halfAt l (off - m) := by
  unfold halfAt; rw [fieldAt_behind _ _ _ _ _ behind]

theorem wordAt_behind (m n off : Nat) (l : List Byte) (behind : m ≤ off) : wordAt (beBytes m n ++ l) off = wordAt l (off - m) := by
  unfold wordAt; rw [fieldAt_behind _ _ _ _ _ behind]

/-! ### Requests and their payloads (section 10.9) -/

theorem readBlock_writeBlock (b : BlockFields) : readBlock (writeBlock b) = b := by
  unfold readBlock writeBlock
  simp [List.append_assoc, byteAt_behind, wordAt_behind]

theorem readMeter_writeMeter (m : MeterReport) : readMeter (writeMeter m) = m := by
  unfold readMeter readTrain readTier writeMeter writeTrain writeTier
  simp [List.append_assoc, byteAt_behind, halfAt_behind, wordAt_behind]

theorem length_writeMeter (m : MeterReport) : (writeMeter m).length = 89 := by
  simp [writeMeter, writeTrain, writeTier]

theorem length_writeBlock (b : BlockFields) : (writeBlock b).length = 20 := by
  simp [writeBlock]

/-- The reader takes each request for the command it stands for, and its payload has the catalogue's length (section 10.8). -/
theorem readRequest_requestOf {c : Instr} {p : Port} {kind : Byte} {payload : List Byte} (well : c.wellFormed = true)
    (request : requestOf c = some (p, kind, payload)) :
    readRequest p kind payload = some c ∧ catalogue p kind = some payload.length := by
  cases c
  case declareAvailable train declaration starts =>
    have other : declaration ≠ 2#8 := of_decide_eq_true well
    cases request
    simp [readRequest, catalogue, byteAt_behind, other]
  case meter => cases request; simp [readRequest, catalogue, readMeter_writeMeter, length_writeMeter]
  case submit => cases request; simp [readRequest, catalogue, readBlock_writeBlock, length_writeBlock]
  case declareOffline =>
    cases request
    have declared : byteAt (beBytes 1 2 ++ beBytes 1 0) 0 = 2#8 := by decide
    simp [readRequest, catalogue, byteAt_behind, declared]
  case anchor | profileWrite | clockSet | profileRead =>
    cases request; simp [readRequest, catalogue, byteAt_behind, wordAt_behind]
  all_goals cases request
  all_goals simp [readRequest, catalogue]

theorem payload_le {p : Port} {kind : Byte} {n : Nat} (known : catalogue p kind = some n) : n ≤ 120 := by
  unfold catalogue at known
  split at known <;> cases known <;> decide

/-! ### The reader -/

theorem receive_good (p : Port) (kind : Byte) {payload : List Byte} (short : payload.length ≤ 120) :
    receive p (frameBytes kind payload) = readFrame p kind payload := by
  have length : (BitVec.ofNat 8 payload.length).toNat = payload.length := by
    rw [BitVec.toNat_ofNat, Nat.mod_eq_of_lt (by omega)]
  show receive p (kind :: BitVec.ofNat 8 payload.length :: (payload ++ [crc8 (kind :: BitVec.ofNat 8 payload.length :: payload)])) = _
  unfold receive
  simp [length, maxPayload, short]

/-- Settles O13. -/
theorem everyRequestIsReceivedAsSent : Obligations.EveryRequestIsReceivedAsSent := by
  refine ⟨fun c p bytes well sent => ?_, fun train starts => ?_⟩
  · obtain ⟨⟨q, kind, payload⟩, request, written⟩ := Option.map_eq_some_iff.mp sent
    obtain ⟨rfl, rfl⟩ := Prod.mk.inj written
    obtain ⟨read, known⟩ := readRequest_requestOf well request
    dsimp only
    rw [receive_good q kind (payload_le known), readFrame, known]
    simp [read]
  · have offline : byteAt [train, 2#8, starts] 1 = 2#8 := byteAt_cons 2#8 [starts]
    rw [receive_good .pp _ (by simp)]
    simp [readFrame, catalogue, readRequest, offline, byteAt_cons]

theorem receive_tooLong (p : Port) (kind length : Byte) (rest : List Byte) (long : 120 < length.toNat) :
    receive p (kind :: length :: rest) = .frameDiscard p (.brk :: (kind :: length :: rest).map .byte) := if_pos long

theorem receive_wrongCrc (p : Port) (kind sent : Byte) {payload : List Byte} (short : payload.length ≤ 120)
    (wrong : sent ≠ crc8 (kind :: BitVec.ofNat 8 payload.length :: payload)) :
    receive p (kind :: BitVec.ofNat 8 payload.length :: (payload ++ [sent])) =
      .frameDiscard p (.brk :: (kind :: BitVec.ofNat 8 payload.length :: (payload ++ [sent])).map .byte) := by
  have length : (BitVec.ofNat 8 payload.length).toNat = payload.length := by
    rw [BitVec.toNat_ofNat, Nat.mod_eq_of_lt (by omega)]
  unfold receive
  simp [length, maxPayload, wrong, lineOf]

/-! ### The assembler, event by event (R175 to R177) -/

theorem discard_eq (s : State) (p : Port) (a : Assembler) :
    s.discard p a = s.setPort p (s.afterError p { s.port p with assembler := a }) := by
  simp only [State.discard, State.setAssembler, countError_eq, setPort_setPort, State.afterError, port_setPort]
  rfl

theorem takeBreak_of_waiting {p : Port} (waiting : (s.port p).assembler = .waiting) :
    s.takeBreak p = s.setPort p { s.port p with assembler := .inFrame [] } := by
  unfold State.takeBreak; rw [waiting]; rfl

theorem takeBreak_of_inFrame {p : Port} {bytes : List Byte} (doing : (s.port p).assembler = .inFrame bytes) :
    s.takeBreak p = s.discard p (.inFrame []) := by
  unfold State.takeBreak; rw [doing]

theorem takeLine_brk (p : Port) : s.takeLine p .brk = s.takeBreak p := by
  unfold State.takeLine; cases (s.port p).assembler <;> rfl

theorem takeLine_waiting {p : Port} {event : LineEvent} (waiting : (s.port p).assembler = .waiting) (other : event ≠ .brk) :
    s.takeLine p event = s := by
  unfold State.takeLine; rw [waiting]
  cases event <;> first | rfl | exact absurd rfl other

section InFrame
variable {p : Port} {bytes : List Byte} (doing : (s.port p).assembler = .inFrame bytes)
include doing

theorem takeLine_parityError : s.takeLine p .parityError = s.discard p .waiting := by unfold State.takeLine; rw [doing]

theorem takeLine_noStopBit : s.takeLine p .noStopBit = s.discard p .waiting := by unfold State.takeLine; rw [doing]

theorem takeLine_gap : s.takeLine p .gap = if bytes = [] then s else s.discard p .waiting := by unfold State.takeLine; rw [doing]

theorem takeLine_byte (b : Byte) :
    s.takeLine p (.byte b) =
      match Received.of (bytes ++ [b]) with
      | .arriving => s.setAssembler p (.inFrame (bytes ++ [b]))
      | .damaged => s.discard p .waiting
      | .complete => if (s.port p).owed then s.discard p .waiting else s.setAssembler p .waiting := by
  unfold State.takeLine; rw [doing] <;> rfl

theorem takeLine_arriving {b : Byte} (arriving : Received.of (bytes ++ [b]) = .arriving) :
    s.takeLine p (.byte b) = s.setAssembler p (.inFrame (bytes ++ [b])) := by rw [takeLine_byte doing, arriving]

theorem takeLine_damaged {b : Byte} (damaged : Received.of (bytes ++ [b]) = .damaged) :
    s.takeLine p (.byte b) = s.discard p .waiting := by rw [takeLine_byte doing, damaged]

theorem takeLine_complete {b : Byte} (complete : Received.of (bytes ++ [b]) = .complete) :
    s.takeLine p (.byte b) = if (s.port p).owed then s.discard p .waiting else s.setAssembler p .waiting := by
  rw [takeLine_byte doing, complete]

end InFrame

theorem received_tooLong {kind length : Byte} (long : 120 < length.toNat) (rest : List Byte) :
    Received.of (kind :: length :: rest) = .damaged := if_pos long

theorem received_arriving {kind length : Byte} {rest : List Byte} (short : length.toNat ≤ 120) (wanting : rest.length ≤ length.toNat) :
    Received.of (kind :: length :: rest) = .arriving := (if_neg (Nat.not_lt.mpr short)).trans (if_pos wanting)

theorem received_last {kind length : Byte} {payload : List Byte} (crc : Byte) (short : length.toNat ≤ 120)
    (whole : payload.length = length.toNat) :
    Received.of (kind :: length :: (payload ++ [crc])) =
      if crc = crc8 (kind :: length :: payload) then .complete else .damaged := by
  have fits : ¬ 120 < payload.length := by omega
  unfold Received.of
  simp [maxPayload, ← whole, fits]

/-- The assembler at an event: what a line of one event does. -/
theorem frameDiscard_one (p : Port) (event : LineEvent) : exec (.frameDiscard p [event]) s = .next (s.takeLine p event) := rfl

/-- Settles O8. -/
theorem discardedFramesAreCounted : Obligations.DiscardedFramesAreCounted := by
  refine ⟨receive_tooLong, fun p kind sent payload short wrong => receive_wrongCrc p kind sent short wrong, fun s p => rfl,
    fun s t p event line e => ?_, fun s p => ?_, fun s c p bytes well frame doing => ?_⟩
  · cases e; rfl
  · dsimp only
    have leaves {event : LineEvent} {x : PortState} (h : s.takeLine p event = s.setPort p x) :
        ∃ t, exec (.frameDiscard p [event]) s = .next t ∧ s.onlyChanges t [portPart p] ∧ t.port p = x :=
      ⟨s.setPort p x, by rw [frameDiscard_one, h], setPort_frame s p x, port_setPort s p x⟩
    have stays {event : LineEvent} (h : s.takeLine p event = s) :
        ∃ t, exec (.frameDiscard p [event]) s = .next t ∧ s.onlyChanges t [portPart p] ∧ t.port p = s.port p :=
      leaves (h.trans (setPort_self s p).symm)
    refine ⟨fun waiting => ⟨leaves ((takeLine_brk p).trans (takeBreak_of_waiting waiting)),
      fun event other => stays (takeLine_waiting waiting other)⟩, fun bytes doing => ?_⟩
    refine ⟨leaves ((takeLine_brk p).trans ((takeBreak_of_inFrame doing).trans (discard_eq s p _))),
      leaves ((takeLine_parityError doing).trans (discard_eq s p _)), leaves ((takeLine_noStopBit doing).trans (discard_eq s p _)),
      fun empty => stays ((takeLine_gap doing).trans (if_pos empty)),
      fun some => leaves ((takeLine_gap doing).trans ((if_neg some).trans (discard_eq s p _))), fun b => ?_⟩
    refine ⟨fun empty => leaves (takeLine_arriving doing (by rw [empty]; rfl)), fun kind length rest spelled => ?_⟩
    refine ⟨fun long => leaves ((takeLine_damaged doing (by rw [spelled]; exact received_tooLong long rest)).trans (discard_eq s p _)),
      fun short wanting => leaves (takeLine_arriving doing (by rw [spelled]; exact received_arriving short wanting)),
      fun payload crc short split whole => ?_⟩
    have last := received_last (kind := kind) crc short whole
    rw [← split, ← spelled] at last
    refine ⟨fun bad => ?_, fun good free => ?_⟩
    · by_cases good : crc = crc8 (kind :: length :: payload)
      · rw [if_pos good] at last
        have owed := bad.resolve_left (not_not_intro good)
        exact leaves ((takeLine_complete doing last).trans ((if_pos owed).trans (discard_eq s p _)))
      · rw [if_neg good] at last
        exact leaves ((takeLine_damaged doing last).trans (discard_eq s p _))
    · rw [if_pos good] at last
      exact leaves ((takeLine_complete doing last).trans (if_neg (by rw [free]; decide)))
  · obtain ⟨act, takes⟩ := goodFrame_takes well frame s
    rw [takes s rfl, takes (s.cutOff p) rfl, takeFrame_inFrame doing]

end Sys2Proof.Proofs
end

section
/-! How the effects of several operations add up: cause flags, review requests, the dwell, and the trips of all active trains at one event
(O26). -/

namespace Sys2Proof.Proofs
open Sys2Proof Sys2Proof.Machine

variable {s t u : State}

/-! ### Cause flags (R184) -/

theorem flagged_of_causes {p : Port} {c : Cause} (same : (t.port p).causes = (s.port p).causes) : s.flagged t p c False :=
  ⟨False.elim, fun _ => by rw [same]⟩

theorem flagged_of_raisedOnly {p : Port} {c : Cause} (h : s.raisedOnly t p c) : s.flagged t p c True := by
  refine ⟨fun _ => ?_, fun never => absurd trivial never⟩
  rw [h]
  exact BitVec.eq_of_getElem_eq fun i hi => by simp only [BitVec.getElem_and, BitVec.getElem_or]; grind

/-- Two causes of a port have different bits (R183). -/
theorem mask_and_mask (p : Port) {c d : Cause} (other : d ≠ c) : d.mask p &&& c.mask p = 0#8 := by
  cases p <;> cases c <;> cases d <;> first | rfl | exact absurd rfl other

theorem flagged_raise_self (s : State) (p : Port) (c : Cause) : s.flagged (s.raise p c) p c True :=
  flagged_of_raisedOnly (port_raise s p c)

theorem flagged_raise_other (s : State) (p q : Port) {c d : Cause} (other : d ≠ c) : s.flagged (s.raise q d) p c False := by
  refine ⟨False.elim, fun _ => ?_⟩
  by_cases same : p = q
  · subst same
    have apart := mask_and_mask p other
    rw [port_raise]
    dsimp only
    rw [BitVec.and_comm, BitVec.and_or_distrib_left, BitVec.and_comm _ (d.mask p), apart, BitVec.or_zero, BitVec.and_comm]
  · rw [port_raise_ne s q p d same]

theorem flagged_trans {p : Port} {c : Cause} {a b : Prop} (h : s.flagged t p c a) (g : t.flagged u p c b) : s.flagged u p c (a ∨ b) := by
  refine ⟨fun raised => ?_, fun neither => ?_⟩
  · by_cases later : b
    · exact g.1 later
    · exact (g.2 later).trans (h.1 (raised.resolve_right later))
  · exact (g.2 fun later => neither (.inr later)).trans (h.2 fun before => neither (.inl before))

theorem flagged_congr {p : Port} {c : Cause} {a b : Prop} (h : s.flagged t p c a) (same : a ↔ b) : s.flagged t p c b := by
  rw [← propext same]; exact h

theorem port_of_onlyChanges {l : List Part} (f : s.onlyChanges t l) (p : Port) (untouched : portPart p ∉ l) : t.port p = s.port p := by
  cases p
  · exact f .pp untouched
  · exact f .tp untouched
  · exact f .gp untouched

theorem flagged_of_frame {l : List Part} {p : Port} {c : Cause} (f : s.onlyChanges t l) (untouched : portPart p ∉ l := by decide) :
    s.flagged t p c False := flagged_of_causes (by rw [port_of_onlyChanges f p untouched])

/-! ### Review requests (R68, R70) -/

theorem afterRequests_zero (s : State) : s.afterRequests s.prj 0 :=
  ⟨fun _ => rfl, fun more => absurd more (Nat.lt_irrefl 0), fun more => absurd more (Nat.lt_irrefl 0)⟩

theorem afterRequests_congr {base : Engine} {n : Nat} (h : s.afterRequests base n) (prj : t.prj = s.prj)
    (status : t.inv.status = s.inv.status) (clock : t.tb.clock = s.tb.clock) : t.afterRequests base n := by
  unfold State.afterRequests at h ⊢
  rw [prj, status, clock]; exact h

theorem anchored_iff (x : InventoryStatus) : x.anchored = true ↔ x ≠ .unanchored := by cases x <;> decide

/-- What a review request leaves of the engine, by whether a review can start (R70). -/
theorem reviewRequested_starts (h : s.reviewRequested t) (idle : s.prj.running = none) (anchored : t.inv.status ≠ .unanchored) {c : Clock}
    (set : t.tb.clock = some c) : t.prj = { s.prj with running := some (.review (t.snapshot c)), pendingReview := false } := by
  unfold State.reviewRequested at h
  rw [h, idle, (anchored_iff _).mpr anchored, set]

theorem reviewRequested_waits (h : s.reviewRequested t)
    (cannot : s.prj.running ≠ none ∨ t.inv.status = .unanchored ∨ t.tb.clock = none) : t.prj = { s.prj with pendingReview := true } := by
  unfold State.reviewRequested at h
  rw [h]
  split
  · next idle anchored set =>
    rcases cannot with busy | unanchored | unset
    · exact absurd idle busy
    · rw [unanchored] at anchored; cases anchored
    · rw [unset] at set; cases set
  · rfl

theorem snapshot_clock (s : State) (c : Clock) : (s.snapshot c).clock = c := rfl

/-- One more review request. -/
theorem afterRequests_succ {base : Engine} {n : Nat} (h : s.afterRequests base n) (review : s.reviewRequested t)
    (status : t.inv.status = s.inv.status) (clock : t.tb.clock = s.tb.clock) : t.afterRequests base (n + 1) := by
  obtain ⟨first, started, waited⟩ := h
  refine ⟨fun none => absurd none (Nat.succ_ne_zero n), fun _ idle anchored c set => ?_, fun _ cannot => ?_⟩
  · rcases Nat.eq_zero_or_pos n with rfl | more
    · have before := first rfl
      have starts := reviewRequested_starts review (by rw [before]; exact idle) anchored set
      exact ⟨_, snapshot_clock t c, by rw [starts, before]; rfl⟩
    · obtain ⟨snap, clocked, before⟩ := started more idle (by rw [← status]; exact anchored) c (by rw [← clock]; exact set)
      have again := reviewRequested_waits review (.inl (by rw [before]; nofun))
      refine ⟨snap, clocked, ?_⟩
      rw [again, before, decide_eq_true (Nat.succ_lt_succ more)]
  · rcases Nat.eq_zero_or_pos n with rfl | more
    · have before := first rfl
      rw [reviewRequested_waits review (by rw [before]; exact cannot), before]
    · have before := waited more (by rw [← status, ← clock]; exact cannot)
      rw [reviewRequested_waits review (by rw [before]; exact cannot), before]

/-! ### The dwell (R122) -/

/-- A step of one train that may leave the active states and loads the dwell where it is the last of its kind to do so (R122). -/
structure LeavesActive (s t : State) (x : Train) : Prop where
  others : ∀ y, y ≠ x → (t.train y).state.active = (s.train y).state.active
  self : (t.train x).state.active = true → (s.train x).state.active = true
  loads : (s.train x).state.active = true → (t.train x).state.active = false → s.lastActive x → 0 < s.cfg.dwell →
    t.du.dwell = some (s.now + s.cfg.dwell) ∧ t.du.dwellKind = some x.kind
  keeps : ((s.train x).state.active = (t.train x).state.active ∨ ¬ s.lastActive x ∨ s.cfg.dwell = 0) →
    t.du.dwell = s.du.dwell ∧ t.du.dwellKind = s.du.dwellKind

theorem dwellFollows_refl (s : State) : s.DwellFollows s where
  turbines _ emptied := by
    obtain ⟨⟨x, kind, active⟩, none⟩ := emptied
    rw [none x kind] at active; cases active
  compressors _ emptied _ := by
    obtain ⟨⟨x, kind, active⟩, none⟩ := emptied
    rw [none x kind] at active; cases active
  kept _ := ⟨rfl, rfl⟩

theorem dwellFollows_congr (h : s.DwellFollows t) (trains : ∀ x, (u.train x).state.active = (t.train x).state.active)
    (dwell : u.du.dwell = t.du.dwell) (kind : u.du.dwellKind = t.du.dwellKind) : s.DwellFollows u := by
  have same (k : Kind) : s.emptied u k ↔ s.emptied t k := by unfold State.emptied; simp only [trains]
  exact ⟨by rw [same, dwell, kind]; exact h.turbines, by rw [same, same, dwell, kind]; exact h.compressors,
    by rw [same, same, dwell, kind]; exact h.kept⟩

/-- A kind that still has an active train has not been emptied. -/
theorem not_emptied {x : Train} {k : Kind} (kind : x.kind = k) (active : (t.train x).state.active = true) : ¬ s.emptied t k :=
  fun ⟨_, idle⟩ => by rw [idle x kind] at active; cases active

/-- The trains leave the active states one after another, the compressors before the turbines. -/
theorem dwellFollows_step {x : Train} (h : s.DwellFollows t) (step : LeavesActive t u x) (cfg : t.cfg = s.cfg) (now : t.now = s.now)
    (fewer : ∀ y, (t.train y).state.active = true → (s.train y).state.active = true)
    (order : x.kind = .compressor → ∀ y : Train, y.kind = .turbine → (t.train y).state.active = (s.train y).state.active) :
    s.DwellFollows u := by
  by_cases leaves : (t.train x).state.active = true ∧ (u.train x).state.active = false
  · obtain ⟨active, left⟩ := leaves
    have other (k : Kind) (ne : x.kind ≠ k) : s.emptied u k ↔ s.emptied t k := by
      unfold State.emptied
      refine and_congr_right fun _ => forall_congr' fun y => imp_congr_right fun kind => ?_
      rw [step.others y fun same => ne (same ▸ kind)]
    by_cases last : t.lastActive x
    · have emptied : s.emptied u x.kind := by
        refine ⟨⟨x, rfl, fewer x active⟩, fun y kind => ?_⟩
        by_cases same : y = x
        · rw [same]; exact left
        · rw [step.others y same]; exact last y kind same
      have loads := step.loads active left last
      rw [cfg, now] at loads
      have zeroKeeps (zero : s.cfg.dwell = 0) : u.du.dwell = s.du.dwell ∧ u.du.dwellKind = s.du.dwellKind :=
        have before := h.kept (.inl zero)
        have keeps := step.keeps (.inr (.inr (by rw [cfg]; exact zero)))
        ⟨keeps.1.trans before.1, keeps.2.trans before.2⟩
      cases kind : x.kind with
      | turbine =>
        rw [kind] at emptied loads
        refine ⟨fun pos _ => loads pos, fun _ _ turbine => absurd emptied turbine, fun none => ?_⟩
        exact none.elim zeroKeeps fun neither => absurd emptied neither.2
      | compressor =>
        rw [kind] at emptied loads
        have turbine : ¬ s.emptied u .turbine := by
          rw [other .turbine (by rw [kind]; decide)]
          rintro ⟨⟨y, turbine, was⟩, idle⟩
          rw [← order kind y turbine, idle y turbine] at was; cases was
        refine ⟨fun _ gone => absurd gone turbine, fun pos _ _ => loads pos, fun none => ?_⟩
        exact none.elim zeroKeeps fun neither => absurd emptied neither.1
    · obtain ⟨dwell, dwellKind⟩ := step.keeps (.inr (.inl last))
      have before : ¬ s.emptied t x.kind := not_emptied rfl active
      have after : ¬ s.emptied u x.kind := by
        unfold State.lastActive at last
        simp only [not_forall] at last
        obtain ⟨y, kind, ne, still⟩ := last
        exact not_emptied kind (by rw [step.others y ne]; exact Bool.not_eq_false _ ▸ still)
      have same (k : Kind) : s.emptied u k ↔ s.emptied t k := by
        by_cases kind : x.kind = k
        · subst kind; exact iff_of_false after before
        · exact other k kind
      exact ⟨by rw [same, dwell, dwellKind]; exact h.turbines, by rw [same, same, dwell, dwellKind]; exact h.compressors,
        by rw [same, same, dwell, dwellKind]; exact h.kept⟩
  · have same : (t.train x).state.active = (u.train x).state.active := by
      cases was : (t.train x).state.active <;> cases is : (u.train x).state.active
      · rfl
      · have := step.self is; rw [was] at this; cases this
      · exact absurd ⟨was, is⟩ leaves
      · rfl
    obtain ⟨dwell, dwellKind⟩ := step.keeps (.inl same)
    refine dwellFollows_congr h (fun y => ?_) dwell dwellKind
    by_cases self : y = x
    · rw [self]; exact same.symm
    · exact step.others y self

/-! ### The trains one after another -/

/-- What holds after each of the first trains of the order holds of all of them; of two kinds the compressors come first (R85). -/
theorem foldl_trains {I : List Train → State → Prop} {f : State → Train → State} (start : I [] s)
    (step : ∀ (done : List Train) (x : Train) (v : State), x ∉ done → (x.kind = .compressor → ∀ y ∈ done, y.kind = .compressor) →
      I done v → I (done ++ [x]) (f v x)) : I Train.all (Train.all.foldl f s) := by
  have go : ∀ (rest done : List Train) (v : State), (done ++ rest).Nodup →
      (done ++ rest).Pairwise (fun a b => b.kind = .compressor → a.kind = .compressor) → I done v → I (done ++ rest) (rest.foldl f v) := by
    intro rest
    induction rest with
    | nil => intro done v _ _ h; rw [List.append_nil]; exact h
    | cons x rest ih =>
      intro done v nodup ordered h
      have whole : done ++ x :: rest = done ++ [x] ++ rest := by rw [List.append_assoc]; rfl
      have fresh : x ∉ done := fun old => (List.disjoint_of_nodup_append nodup) old (List.mem_cons_self ..)
      have before (compressor : x.kind = .compressor) (y : Train) (hy : y ∈ done) : y.kind = .compressor :=
        (List.pairwise_append.mp ordered).2.2 y hy x (List.mem_cons_self ..) compressor
      rw [whole] at nodup ordered ⊢
      exact ih (done ++ [x]) (f v x) nodup ordered (step done x v fresh before h)
  exact go Train.all [] s (by decide) (by decide) start

/-! ### The trips of all active trains (R104, R109 to R111) -/

/-- The trips of the active trains of a list. -/
structure TripsOf (s t : State) (reason : TripReason) (done : List Train) : Prop where
  tripped : ∀ x ∈ done, (s.train x).state.active = true →
    t.train x =
      { s.train x with
        state := .tripped, reason := some reason, minDown := .stopped, minRun := .stopped, start := .stopped,
        stop := .stopped, cooldown := .stopped } ∧
    t.du.setpoint.get x = 0
  others : ∀ x, (x ∉ done ∨ (s.train x).state.active = false) → t.train x = s.train x ∧ t.du.setpoint.get x = s.du.setpoint.get x
  generation : t.trc.generation = s.trc.generation + BitVec.ofNat 32 (done.filter fun x => (s.train x).state.active).length
  permitHold : t.trc.permitHold = s.trc.permitHold
  dwell : s.DwellFollows t
  trip : s.flagged t .pp .trip (∃ x ∈ done, (s.train x).state.active = true)
  capacity : s.flagged t .tp .capacity (∃ x ∈ done, (s.train x).state.active = true)
  reviews : t.afterRequests s.prj (done.filter fun x => (s.train x).state.active).length
  frame : s.onlyChanges t trainParts

theorem trips_leavesActive {x : Train} {reason : TripReason} (h : s.Trips t x reason) : LeavesActive s t x where
  others y ne := by rw [h.others y ne]
  self active := by rw [h.record] at active; cases active
  loads active _ last pos := by rw [h.loadsDwell active last pos]; exact ⟨rfl, rfl⟩
  keeps none := by
    have left : (t.train x).state.active = false := by rw [h.record]; rfl
    rw [left] at none
    rw [h.keepsDwell none]; exact ⟨rfl, rfl⟩

theorem setpoint_trips {x : Train} {reason : TripReason} (h : s.Trips t x reason) :
    t.du.setpoint = s.du.setpoint.set x 0 := by
  by_cases loads : (s.train x).state.active = true ∧ s.lastActive x ∧ 0 < s.cfg.dwell
  · rw [h.loadsDwell loads.1 loads.2.1 loads.2.2]
  · rw [h.keepsDwell (by
      rw [not_and_or, not_and_or] at loads
      exact loads.imp (fun idle => Bool.eq_false_iff.mpr idle) fun rest => rest.imp id fun zero => Nat.eq_zero_of_not_pos zero)]

theorem frame_now {l : List Part} (f : s.onlyChanges t l) (tb : Part.tb ∉ l := by decide) : t.now = s.now :=
  now_congr (by rw [frame_tb f tb])

theorem tripsOf_step {reason : TripReason} {done : List Train} {x : Train} (fresh : x ∉ done)
    (before : x.kind = .compressor → ∀ y ∈ done, y.kind = .compressor) (h : TripsOf s t reason done) :
    TripsOf s (State.tripIfActive reason t x) reason (done ++ [x]) := by
  have same := (h.others x (.inl fresh)).1
  by_cases active : (s.train x).state.active = true
  · have took : State.tripIfActive reason t x = t.trip x reason := if_pos (by rw [same]; exact active)
    have trips := trip_trips t x reason
    rw [took]
    generalize t.trip x reason = v at trips
    have setpoint := setpoint_trips trips
    have count : ((done ++ [x]).filter fun y => (s.train y).state.active).length =
        (done.filter fun y => (s.train y).state.active).length + 1 := by
      simp [List.filter_append, active]
    have ne {y : Train} (old : y ∈ done) : y ≠ x := fun e => fresh (e ▸ old)
    refine
      { tripped := fun y hy was => ?_, others := fun y hy => ?_, generation := ?_, permitHold := trips.permitHold.trans h.permitHold
        dwell := ?_
        trip := flagged_congr (flagged_trans h.trip (flagged_of_raisedOnly trips.plant))
          (iff_of_true (.inr trivial) ⟨x, List.mem_append_right _ (List.mem_singleton_self x), active⟩)
        capacity := flagged_congr (flagged_trans h.capacity (flagged_of_raisedOnly trips.trade))
          (iff_of_true (.inr trivial) ⟨x, List.mem_append_right _ (List.mem_singleton_self x), active⟩)
        reviews := ?_, frame := onlyChanges_trans h.frame trips.frame }
    · rcases List.mem_append.mp hy with old | new
      · rw [trips.others y (ne old), setpoint, PerTrain.get_set_ne _ _ (ne old)]
        exact h.tripped y old was
      · cases List.mem_singleton.mp new
        rw [trips.record, setpoint, PerTrain.get_set_self, same]
        exact ⟨rfl, rfl⟩
    · have other : y ≠ x := by
        rintro rfl
        rcases hy with new | idle
        · exact new (List.mem_append_right _ (List.mem_singleton_self y))
        · rw [active] at idle; cases idle
      rw [trips.others y other, setpoint, PerTrain.get_set_ne _ _ other]
      exact h.others y (hy.imp (fun new old => new (List.mem_append_left _ old)) id)
    · rw [trips.generation, h.generation, count, BitVec.ofNat_add, BitVec.add_assoc]; rfl
    · refine dwellFollows_step h.dwell (trips_leavesActive trips) (cfg_congr (frame_settings h.frame)) (frame_now h.frame)
        (fun y still => ?_) fun compressor y turbine => ?_
      · by_cases was : (s.train y).state.active = true
        · exact was
        · rw [(h.others y (.inr (Bool.eq_false_iff.mpr was))).1] at still; exact still
      · have new : y ∉ done := fun old => by rw [before compressor y old] at turbine; cases turbine
        rw [(h.others y (.inl new)).1]
    · rw [count]
      exact afterRequests_succ h.reviews trips.review (by rw [frame_inv trips.frame]) (by rw [frame_tb trips.frame])
  · have stays : State.tripIfActive reason t x = t := if_neg (by rw [same]; exact active)
    have idle := Bool.eq_false_iff.mpr active
    have count : (done ++ [x]).filter (fun y => (s.train y).state.active) = done.filter fun y => (s.train y).state.active := by
      simp [List.filter_append, active]
    have some : (∃ y ∈ done, (s.train y).state.active = true) ↔ ∃ y ∈ done ++ [x], (s.train y).state.active = true := by
      constructor
      · rintro ⟨y, old, was⟩; exact ⟨y, List.mem_append_left _ old, was⟩
      · rintro ⟨y, hy, was⟩
        rcases List.mem_append.mp hy with old | new
        · exact ⟨y, old, was⟩
        · cases List.mem_singleton.mp new; exact absurd was active
    rw [stays]
    refine
      { tripped := fun y hy was => ?_, others := fun y hy => h.others y ?_, generation := by rw [count]; exact h.generation
        permitHold := h.permitHold, dwell := h.dwell, trip := flagged_congr h.trip some, capacity := flagged_congr h.capacity some
        reviews := by rw [count]; exact h.reviews, frame := h.frame }
    · rcases List.mem_append.mp hy with old | new
      · exact h.tripped y old was
      · cases List.mem_singleton.mp new; exact absurd was active
    · exact hy.imp (fun new old => new (List.mem_append_left _ old)) id

theorem tripActive_tripsOf (s : State) (reason : TripReason) : TripsOf s (s.tripActive reason) reason Train.all :=
  foldl_trains (I := fun done v => TripsOf s v reason done) (f := State.tripIfActive reason)
    { tripped := nofun, others := fun _ _ => ⟨rfl, rfl⟩, generation := (BitVec.add_zero _).symm, permitHold := rfl
      dwell := dwellFollows_refl s, trip := flagged_congr (flagged_of_causes rfl) (by simp)
      capacity := flagged_congr (flagged_of_causes rfl) (by simp), reviews := afterRequests_zero s, frame := onlyChanges_refl s _ }
    fun done x v fresh before h => tripsOf_step fresh before h

/-- All that tripping the active trains does (R104, R109 to R111, R122, R128). -/
theorem tripActive_tripsActive (s : State) (reason : TripReason) : s.TripsActive (s.tripActive reason) reason := by
  have h := tripActive_tripsOf s reason
  have some : (∃ x ∈ Train.all, (s.train x).state.active = true) ↔ ∃ x : Train, (s.train x).state.active = true :=
    ⟨fun ⟨x, _, active⟩ => ⟨x, active⟩, fun ⟨x, active⟩ => ⟨x, Train.mem_all x, active⟩⟩
  refine
    { tripped := fun x active => ?_, others := fun x idle => (h.others x (.inr idle)).1, generation := h.generation, dwell := h.dwell
      trip := flagged_congr h.trip some, capacity := flagged_congr h.capacity some, reviews := h.reviews }
  obtain ⟨record, setpoint⟩ := h.tripped x (Train.mem_all x) active
  exact ⟨record, by rw [permit_eq, record]; exact Bool.and_false _, setpoint⟩

end Sys2Proof.Proofs
end

section
/-! The events of a dispatch tick that act on the inventory, the trains and the grid link (O18, O19, O24 to O26, O49), and the requests that
declare and read a train (O21, O23). -/

namespace Sys2Proof.Proofs
open Sys2Proof Sys2Proof.Machine

variable {s t u : State}

/-- An event's command has the event's effect in the state in which it is taken. -/
theorem exec_row_of_takenAt {e : Event} (taken : s.takenAt e u) : exec e.row s = .next (u.fire e) := by
  rw [exec_row, atEvent_taken taken]

theorem isDue_of_takenAt {e : Event} (taken : s.takenAt e u) : u.isDue e = true := by
  obtain ⟨due, hd, le⟩ := takenAt_due taken
  unfold State.isDue; rw [hd]; exact decide_eq_true le

theorem markRecord_slog (s : State) (f : RecordFlags → RecordFlags) :
    (s.markRecord f).slog = { s.slog with current := s.slog.current.map fun r => { r with flags := f r.flags } } := by
  unfold State.markRecord
  cases current : s.slog.current with
  | none => exact congrArg (fun x => { s.slog with current := x }) current
  | some r => rfl

/-! ### The loss tick (R16) -/

theorem takeLosses_of_unanchored (unanchored : s.inv.status = .unanchored) : s.takeLosses.inv = s.inv := by
  unfold State.takeLosses State.applyLosses
  rw [if_neg (by rw [State.withTb_inv, unanchored]; decide)]
  rfl

theorem takeLosses_of_anchored {c : Settings} (anchored : s.inv.status ≠ .unanchored) (loaded : s.settings = some c) :
    s.takeLosses.inv =
      { s.inv with
        mass := s.inv.mass - c.leakage
        heat :=
          { t1 := s.inv.heat.t1 - s.inv.heat.t1 * c.tiers.t1.lossRate / 1000000
            t2 := s.inv.heat.t2 - s.inv.heat.t2 * c.tiers.t2.lossRate / 1000000
            t3 := s.inv.heat.t3 - s.inv.heat.t3 * c.tiers.t3.lossRate / 1000000 } } := by
  unfold State.takeLosses State.applyLosses
  rw [if_pos (by rw [State.withTb_inv]; exact (anchored_iff _).mpr anchored), ← cfg_of_settings loaded]
  rfl

/-- Settles O18. -/
theorem lossTickTakesRoundedDownLosses : Obligations.LossTickTakesRoundedDownLosses := by
  intro s u taken
  obtain ⟨due, hd, le⟩ := takenAt_due taken
  cases hd
  exact ⟨le, u.takeLosses, exec_row_of_takenAt taken, fire_frame u .loss, takeLosses_tb u, takeLosses_of_unanchored,
    fun c anchored loaded => takeLosses_of_anchored anchored loaded⟩

/-! ### Stale onset (R17, R18, R109) -/

theorem nextTick_staleInputs (settled : s.settled) : (s.nextTick true).settings = s.settings ∧ (s.nextTick true).inv = s.inv := by
  rw [nextTick_of_settled settled]
  have f := passTime_frame s (1000 - s.tb.phase)
  exact ⟨(frame_settings (t := s.passTime (1000 - s.tb.phase)) f), (frame_inv (t := s.passTime (1000 - s.tb.phase)) f)⟩

/-- Settles O19. -/
theorem staleOnsetStartsThePermitHold : Obligations.StaleOnsetStartsThePermitHold := by
  refine ⟨fun s u taken => ?_, fun s settled cannot => ?_⟩
  · obtain ⟨start, fresh, c, loaded, reached⟩ := staleDue_le_iff.mp (isDue_of_takenAt taken)
    refine ⟨c, u.becomeStale, loaded, fresh, reached, start, exec_row_of_takenAt taken,
      onlyChanges_mono (becomeStale_frame u) (by decide), ?_⟩
    have slog : u.becomeStale.slog = _ := markRecord_slog _ _
    have f : ∀ v : State, v.onlyChanges (v.markRecord .setStale) [.slog] := fun v => markRecord_frame v _
    refine ⟨?_, ?_, slog, ?_⟩
    · unfold State.becomeStale; rw [frame_inv (f _)]; rfl
    · unfold State.becomeStale; rw [frame_trc (f _), ← cfg_of_settings loaded]; rfl
    · unfold State.becomeStale State.raisedOnly; rw [port_of_onlyChanges (f _) .tp (by decide), port_raise]; rfl
  · have none (u : State) : ¬ s.takenAt .stale u := by
      intro taken
      have unmet (v : State) (settings : v.settings = s.settings) (inv : v.inv = s.inv) : ¬ v.isDue .stale = true := fun due => by
        obtain ⟨-, fresh, c, loaded, -⟩ := staleDue_le_iff.mp due
        rcases cannot with unloaded | stale
        · rw [settings, unloaded] at loaded; cases loaded
        · rw [inv, stale] at fresh; cases fresh
      rcases taken with ⟨due, -⟩ | ⟨-, -, rfl, due⟩
      · exact unmet s rfl rfl due
      · have same := nextTick_staleInputs settled
        exact unmet _ same.1 same.2 due
    show exec (Event.row .stale) s = _
    rw [exec_row, atEvent_none none]

/-! ### The timers of a train (R89 to R91) -/

/-- Of rising entries, those dropped from the front are all that the test finds. -/
theorem dropWhile_eq_filter {l : List Nat} {p : Nat → Bool} (rises : l.Pairwise (· ≤ ·)) (down : ∀ a b, a ≤ b → p b = true → p a = true) :
    l.dropWhile p = l.filter fun a => !p a := by
  induction l with
  | nil => rfl
  | cons a l ih =>
    obtain ⟨least, rest⟩ := List.pairwise_cons.mp rises
    cases first : p a with
    | true => rw [List.dropWhile_cons_of_pos first, List.filter_cons_of_neg (by simp [first]), ih rest]
    | false =>
      rw [List.dropWhile_cons_of_neg (by simp [first]), List.filter_cons_of_pos (by simp [first])]
      refine congrArg (a :: ·) (List.filter_eq_self.mpr fun b hb => ?_).symm
      cases later : p b with
      | true => rw [down a b (least b hb) later] at first; cases first
      | false => rfl

/-- Settles O24. -/
theorem trainTimersRunOut : Obligations.TrainTimersRunOut := by
  intro s u x
  refine ⟨fun taken => ?_, fun taken => ?_, fun taken starting => ?_, fun taken stopping => ?_, fun taken rises => ?_⟩
  · obtain ⟨due, hd, le⟩ := takenAt_due taken
    exact ⟨due, hd, le, u.minDownRanOut x, exec_row_of_takenAt taken, setTrain_frame u x _, rfl⟩
  · obtain ⟨due, hd, le⟩ := takenAt_due taken
    exact ⟨due, hd, le, u.minRunRanOut x, exec_row_of_takenAt taken, setTrain_frame u x _, rfl⟩
  · obtain ⟨due, hd, le⟩ := takenAt_due taken
    refine ⟨due, hd, le, u.trip x .startTimeout, ?_, trip_trips u x _⟩
    exact (exec_row_of_takenAt taken).trans (congrArg Host.Outcome.next (if_pos starting))
  · obtain ⟨due, hd, le⟩ := takenAt_due taken
    refine ⟨due, hd, le, u.trip x .stopTimeout, ?_, trip_trips u x _⟩
    exact (exec_row_of_takenAt taken).trans (congrArg Host.Outcome.next (if_pos stopping))
  · obtain ⟨due, hd, le⟩ := takenAt_due taken
    obtain ⟨oldest, first, rfl⟩ := Option.map_eq_some_iff.mp hd
    obtain ⟨rest, history⟩ := List.head?_eq_some_iff.mp first
    refine ⟨oldest, rest, history, le, u.pruneHistory x, exec_row_of_takenAt taken, setTrain_frame u x _, ?_⟩
    have pruned : (u.train x).history.dropWhile (fun stamp => decide (startHistoryAge ≤ u.now - stamp)) =
        (u.train x).history.filter fun stamp => decide (u.now < stamp + 86400) := by
      rw [dropWhile_eq_filter rises fun a b le later => ?_]
      · refine List.filter_congr fun stamp _ => ?_
        unfold startHistoryAge
        rw [← decide_not]
        exact decide_eq_decide.mpr (by omega)
      · have later := of_decide_eq_true later
        exact decide_eq_true (by omega)
    unfold State.pruneHistory
    rw [pruned]
    rfl

/-! ### The cooldown (R89, R105, R107) -/

/-- A LOCKED train whose cooldown has run out. -/
def cooledDown (r : TrainRecord) : TrainRecord := { r with cooldown := .ranOut }

theorem cooldownRanOut_eq (s : State) (x : Train) :
    s.cooldownRanOut x = ((s.raise .pp .releaseReady).setTrain x (cooledDown (s.train x))).tryRelease x := rfl

/-- Settles O25: the expiry raises RELEASE_READY, and the release test is R107's with the cooldown met. -/
theorem cooldownExpiryRaisesReleaseReady : Obligations.CooldownExpiryRaisesReleaseReady := by
  intro s u x taken locked ready
  obtain ⟨due, hd, le⟩ := takenAt_due taken
  refine ⟨due, u.cooldownRanOut x, hd, le, exec_row_of_takenAt taken, ?_⟩
  rw [cooldownRanOut_eq]
  have raised : u.raisedOnly (u.raise .pp .releaseReady) .pp .releaseReady := port_raise u .pp _
  have f := raise_frame u .pp .releaseReady
  have train : (u.raise .pp .releaseReady).train x = u.train x := rfl
  have trc : (u.raise .pp .releaseReady).trc = u.trc := rfl
  have prj : (u.raise .pp .releaseReady).prj = u.prj := rfl
  have trade : (u.raise .pp .releaseReady).port .tp = u.port .tp := port_raise_ne u .pp .tp _ (by decide)
  generalize u.raise .pp .releaseReady = v at raised f train trc prj trade
  by_cases may : ready
  · have releasable : (cooledDown (u.train x)).releasable = true :=
      (releasable_iff (r := cooledDown (u.train x)) locked).mpr ⟨rfl, may⟩
    rw [tryRelease_setTrain_of_releasable v x releasable]
    refine ⟨?_, fun _ => ⟨onlyChanges_trans (onlyChanges_mono f (by decide))
      (onlyChanges_mono (setTrain_changeAvailability_frame v x _) (by decide)), ?_, ?_, ?_⟩, fun cannot => absurd may cannot⟩
    · unfold State.raisedOnly
      rw [port_setTrain_changeAvailability_ne v x _ (by decide)]; exact raised
    · have capacity := setTrain_changeAvailability_raisedOnly v x (released (cooledDown (u.train x)))
      unfold State.raisedOnly at capacity ⊢
      rw [capacity, trade]
    · have review := setTrain_changeAvailability_reviewRequested v x (released (cooledDown (u.train x)))
      unfold State.reviewRequested at review ⊢
      rw [← prj]; exact review
    · rw [setTrain_changeAvailability_trc, trc]; rfl
  · have waits : ¬ (cooledDown (u.train x)).releasable = true := fun releasable =>
      may ((releasable_iff (r := cooledDown (u.train x)) locked).mp releasable).2
    rw [tryRelease_setTrain_of_not_releasable v x waits]
    refine ⟨raised, fun can => absurd can may, fun _ => ⟨onlyChanges_trans (onlyChanges_mono f (by decide))
      (onlyChanges_mono (setTrain_frame v x _) (by decide)), ?_⟩⟩
    show { v.trc with records := v.trc.records.set x (cooledDown (u.train x)) } = _
    rw [trc]; rfl

/-! ### The permit hold (R109) -/

/-- Nothing of a trip of all active trains looks at the permit hold. -/
theorem tripsActive_of_hold {hold : Option Nat} {reason : TripReason}
    (h : (s.withTrc { s.trc with permitHold := hold }).TripsActive t reason) : s.TripsActive t reason :=
  { tripped := h.tripped, others := h.others, generation := h.generation, trip := h.trip, capacity := h.capacity, reviews := h.reviews
    dwell := ⟨h.dwell.turbines, h.dwell.compressors, h.dwell.kept⟩ }

/-- Settles O26. -/
theorem permitHoldExpiryTripsActiveTrains : Obligations.PermitHoldExpiryTripsActiveTrains := by
  intro s u taken
  obtain ⟨due, hd, le⟩ := takenAt_due taken
  have trips := tripActive_tripsOf (u.withTrc { u.trc with permitHold := none }) .link
  exact ⟨due, u.permitHoldRanOut, hd, le, exec_row_of_takenAt taken, permitHoldRanOut_frame u, trips.permitHold,
    tripsActive_of_hold (tripActive_tripsActive _ .link), fun x idle => (trips.others x (.inr idle)).2⟩

/-! ### The grid link (R142, R143) -/

theorem loseLink_eq (s : State) :
    s.loseLink = (((s.withRsv
      { s.rsv with
        link := .lost, linkTimer := none, lossCount := s.rsv.lossCount + 1
        holdTimer := if 0 < s.cfg.activationHold then some (s.now + s.cfg.activationHold) else none
        granted := if 0 < s.cfg.activationHold then s.rsv.granted else 0 }).raise .pp .gridLost).raise .tp .gridLost).markRecord
      .setGridLost := rfl

/-- Settles O49. -/
theorem linkLossHoldsTheGrant : Obligations.LinkLossHoldsTheGrant := by
  intro s u
  refine ⟨fun taken => ?_, fun taken => ?_⟩
  · obtain ⟨due, hd, le⟩ := takenAt_due taken
    refine ⟨due, u.loseLink, hd, le, exec_row_of_takenAt taken, loseLink_frame u, ?_, ?_, ?_, ?_⟩
    · rw [loseLink_eq, frame_rsv (markRecord_frame _ _)]
      show ({ u.rsv with
        link := .lost, linkTimer := none, lossCount := u.rsv.lossCount + 1
        holdTimer := if 0 < u.cfg.activationHold then some (u.now + u.cfg.activationHold) else none
        granted := if 0 < u.cfg.activationHold then u.rsv.granted else 0 } : Reserve) = _
      by_cases zero : u.cfg.activationHold = 0
      · simp [zero]
      · simp [zero, Nat.pos_of_ne_zero zero]
    · rw [loseLink_eq, markRecord_slog]; rfl
    · unfold State.raisedOnly
      rw [loseLink_eq, port_of_onlyChanges (markRecord_frame _ _) .pp (by decide), port_raise_ne _ _ _ _ (by decide), port_raise]
      rfl
    · unfold State.raisedOnly
      rw [loseLink_eq, port_of_onlyChanges (markRecord_frame _ _) .tp (by decide), port_raise, port_raise_ne _ _ _ _ (by decide)]
      rfl
  · obtain ⟨due, hd, le⟩ := takenAt_due taken
    exact ⟨due, u.endActivationHold, hd, le, exec_row_of_takenAt taken, withRsv_frame u _, rfl⟩

/-! ### DECLARE (R92, R93) -/

/-- The record of a train declared available (R92). -/
def declared (s : State) (x : Train) (starts : Nat) : TrainRecord :=
  { s.train x with
    state := .stopped
    history := List.replicate (min starts (s.trainCfg x).startsPerDay) s.now
    minDown := { expiry := some (s.now + (s.trainCfg x).minDown), expired := false }
    minRun := .stopped, start := .stopped, stop := .stopped, cooldown := .stopped }

theorem exec_declareAvailable {number code starts : Byte} (other : code ≠ 2#8) :
    exec (.declareAvailable number code starts) s = .next (s.takeFrame .pp fun s =>
      match Train.ofNumber number with
      | none => s.respond .pp 0x12#8 .badField []
      | some t =>
        if code ≠ 1#8 then s.respond .pp 0x12#8 .badField []
        else if (s.train t).state = .offline then
          (s.declare t starts.toNat).respond .pp 0x12#8 .ok
            (u8 ((s.declare t starts.toNat).train t).state.code ++ u8 ((s.declare t starts.toNat).train t).history.length)
        else s.respond .pp 0x12#8 .trainActive []) := by
  have well : (Instr.declareAvailable number code starts).wellFormed = true := decide_eq_true other
  exact congrArg Host.Outcome.next (if_pos well)

theorem exec_declareOffline {number : Byte} :
    exec (.declareOffline number) s = .next (s.takeFrame .pp fun s =>
      match Train.ofNumber number with
      | none => s.respond .pp 0x12#8 .badField []
      | some t =>
        if (s.train t).state = .stopped then
          ((s.setTrain t { (s.train t).leave with state := .offline }).changeAvailability).respond .pp 0x12#8 .ok
            (u8 TrainState.offline.code)
        else s.respond .pp 0x12#8 .trainActive []) := rfl

/-- A train number names a train exactly from 1 to 7 (R178). -/
theorem ofNumber_eq_none_iff (number : Byte) : Train.ofNumber number = none ↔ number.toNat = 0 ∨ 7 < number.toNat := by
  unfold Train.ofNumber
  split <;> simp_all <;> omega

/-- What a declaration that is taken does beside its response. -/
theorem availabilityReply (s : State) (x : Train) (r : TrainRecord) (k : Byte) (f : List Byte) :
    let v := ((s.taken .pp).setTrain x r).changeAvailability
    s.onlyChanges (v.respond .pp k .ok f) [.trc, .prj, .pp, .tp] ∧
      (v.respond .pp k .ok f).trc =
        { records := s.trc.records.set x r, generation := s.trc.generation + 1, permitHold := s.trc.permitHold } ∧
      s.raisedOnly (v.respond .pp k .ok f) .tp .capacity ∧ s.reviewRequested (v.respond .pp k .ok f) ∧
      s.repliedPlain (v.respond .pp k .ok f) .pp k .ok f :=
  ⟨respond_frame_of (onlyChanges_trans (onlyChanges_mono (taken_frame s .pp) (by decide))
      (onlyChanges_mono (setTrain_changeAvailability_frame _ x _) (by decide))) (by decide) _ _ _,
    setTrain_changeAvailability_trc (s.taken .pp) x r, setTrain_changeAvailability_raisedOnly (s.taken .pp) x r,
    setTrain_changeAvailability_reviewRequested (s.taken .pp) x r,
    repliedPlain_respond _ _ _ (port_setTrain_changeAvailability_ne _ x _ (by decide))⟩

/-- Settles O21. -/
theorem declarationsMoveTheTrain : Obligations.DeclarationsMoveTheTrain := by
  intro s number starts free
  refine ⟨fun x named offline => ?_, fun x named stopped => ?_, fun x named other => ?_, fun x named other => ?_,
    fun code other wrong => ?_, fun unnamed => ?_, ofNumber_eq_none_iff number⟩
  · have reply := availabilityReply s x (declared s x starts.toNat) 0x12#8
      (u8 3 ++ u8 (min starts.toNat (s.trainCfg x).startsPerDay))
    refine ⟨_, ?_, reply⟩
    have record : ((s.taken .pp).declare x starts.toNat).train x = declared s x starts.toNat :=
      train_setTrain_changeAvailability (s.taken .pp) x _
    rw [exec_declareAvailable (by decide), takeFrame_free free, named]
    refine congrArg Host.Outcome.next ((if_neg (not_not_intro rfl)).trans ((if_pos offline).trans ?_))
    rw [record]
    unfold declared
    rw [List.length_replicate]
    rfl
  · have reply := availabilityReply s x { (s.train x).leave with state := .offline } 0x12#8 (u8 2)
    refine ⟨_, ?_, reply⟩
    rw [exec_declareOffline, takeFrame_free free, named]
    exact congrArg Host.Outcome.next (if_pos stopped)
  · exact onlyAnswers_of free (exec_declareAvailable (by decide)) (by
      rw [named]; exact (if_neg (not_not_intro rfl)).trans (if_neg other))
  · exact onlyAnswers_of free exec_declareOffline (by rw [named]; exact if_neg other)
  · refine onlyAnswers_of free (exec_declareAvailable other) ?_
    cases named : Train.ofNumber number with
    | none => rfl
    | some x => exact if_pos (wrong.resolve_left (by rw [named]; nofun))
  · exact onlyAnswers_of free exec_declareOffline (by rw [unnamed])

/-! ### TRAIN READ (R112) -/

theorem timer_bytes (now : Nat) (m : Timer) :
    m.bytes now =
      (match m.expiry with
        | none => [0x00#8, 0xFF#8, 0xFF#8, 0xFF#8, 0xFF#8]
        | some e => [0x01#8] ++ u32 (e - now)) ++ [if m.expired then 1#8 else 0#8] := by
  unfold Timer.bytes
  cases m.expiry <;> rfl

theorem holdBytes_eq (now : Nat) (h : Option Nat) :
    holdBytes now h =
      match h with
      | none => [0x00#8, 0xFF#8, 0xFF#8, 0xFF#8, 0xFF#8]
      | some e => [0x01#8] ++ u32 (e - now) := by
  cases h <;> rfl

theorem orZero_eq (o : Option Nat) : orZero 1 o = u8 (o.getD 0) := by cases o <;> rfl

theorem orAbsent_head (l : List Nat) :
    orAbsent 6 l.head? = match l with | [] => List.replicate 6 0xFF#8 | oldest :: _ => u48 oldest := by
  cases l <;> rfl

theorem exec_trainRead {number : Byte} :
    exec (.trainRead number) s = .next (s.takeFrame .pp fun s =>
      match Train.ofNumber number with
      | none => s.respond .pp 0x14#8 .badField []
      | some t => s.respond .pp 0x14#8 .ok (s.trainFields t)) := rfl

theorem onlyAnswers_plant {c : Instr} {k : Byte} {r : Result} {f : List Byte} (h : s.onlyAnswers c .pp k r f) :
    ∃ t, exec c s = .next t ∧ s.onlyChanges t [.pp] ∧ s.repliedPlain t .pp k r f := by
  obtain ⟨t, e, frame, -, reply⟩ := h
  exact ⟨t, e, frame, reply⟩

/-- Settles O23. -/
theorem trainReadShowsTheRecord : Obligations.TrainReadShowsTheRecord := by
  intro s number free
  refine ⟨fun x named => ?_, fun unnamed => ?_⟩
  · refine onlyAnswers_plant (onlyAnswers_of free exec_trainRead ?_)
    rw [named]
    refine congrArg ((s.taken .pp).respond .pp 0x14#8 .ok) ?_
    have kind : x.kind.code = if x.kind = .compressor then 1 else 2 := by cases x <;> rfl
    have reason : ((s.train x).reason.map TripReason.code).getD 0 = match (s.train x).reason with | none => 0 | some q => q.code := by
      cases (s.train x).reason <;> rfl
    have reported : ((s.train x).reported.map Reported.code).getD 0 =
        match (s.train x).reported with | none => 0 | some q => q.code := by cases (s.train x).reported <;> rfl
    have sensitivity : (s.train x).sensitivity.code = if (s.train x).sensitivity = .edge then 0 else 1 := by
      cases (s.train x).sensitivity <;> rfl
    have permit : yesNo (s.permit x) = [if s.prof.mode = .service ∧
        ((s.train x).state = .starting ∨ (s.train x).state = .running ∨ (s.train x).state = .stopping) then 1#8 else 0#8] := by
      unfold yesNo
      simp only [permit_eq, Bool.and_eq_true, decide_eq_true_eq, active_iff]
    show s.trainFields x = _
    unfold State.trainFields
    dsimp only
    rw [kind, orZero_eq, reason, orZero_eq, reported, orAbsent_head, sensitivity, permit]
    simp only [timer_bytes, holdBytes_eq] <;> rfl
  · exact onlyAnswers_plant (onlyAnswers_of free exec_trainRead (by rw [unnamed]))

end Sys2Proof.Proofs
end

section
/-! The requests on the profile images and the mode (O28 to O30, O35), memory faults and the background check (O34), and a check that fails
(O32). -/

namespace Sys2Proof.Proofs
open Sys2Proof Sys2Proof.Machine

variable {s t u : State}

/-! ### Refusals -/

theorem profileBusy_iff : s.profileBusy = true ↔ s.prof.activity ≠ .idle := decide_eq_true_iff

theorem maintenanceRefusal_of_idle (mode : s.prof.mode = .maintenance) (idle : s.prof.activity = .idle) : s.maintenanceRefusal = none := by
  unfold State.maintenanceRefusal
  rw [if_neg (not_not_intro mode), if_neg fun busy => profileBusy_iff.mp busy idle]

theorem maintenanceRefusal_of_mode (mode : s.prof.mode ≠ .maintenance) : s.maintenanceRefusal = some .wrongMode := if_pos mode

theorem maintenanceRefusal_of_busy (mode : s.prof.mode = .maintenance) (busy : s.prof.activity ≠ .idle) :
    s.maintenanceRefusal = some .busy := by
  unfold State.maintenanceRefusal
  rw [if_neg (not_not_intro mode), if_pos (profileBusy_iff.mpr busy)]

theorem lengthRefusal_of_empty (empty : s.book.blocks = []) (noCheck : s.inFlight = none) : s.lengthRefusal = none := by
  unfold State.lengthRefusal
  rw [if_neg (not_not_intro empty), noCheck]; rfl

theorem lengthRefusal_of_book (held : s.book.blocks ≠ []) : s.lengthRefusal = some .bookNotEmpty := if_pos held

theorem lengthRefusal_of_check (empty : s.book.blocks = []) (check : s.inFlight ≠ none) : s.lengthRefusal = some .busy := by
  unfold State.lengthRefusal
  rw [if_neg (not_not_intro empty), if_pos (Option.isSome_iff_ne_none.mpr check)]

/-- The first test of a PROFILE WRITE (R163). -/
theorem writeRefusal_of_range {field : Nat} {value : Word} (out : ¬ (1 ≤ field ∧ field ≤ 158)) : s.writeRefusal field value = some .badField := by
  have outside : ¬ inRange 1 fieldCount field = true := fun ranged => out (inRange_bounds ranged)
  exact if_pos outside

theorem inRange_of_bounds {lo hi v : Nat} (h : lo ≤ v ∧ v ≤ hi) : inRange lo hi v = true := by
  unfold inRange; simpa using h

/-- The tests of a PROFILE WRITE whose field exists: R164's, and for L and G R62's. -/
theorem writeRefusal_of_ranged {field : Nat} {value : Word} (ranged : 1 ≤ field ∧ field ≤ 158) :
    s.writeRefusal field value =
      match s.maintenanceRefusal with
      | some refusal => some refusal
      | none => if (field = 2 ∨ field = 3) ∧ s.prof.working.word field ≠ value then s.lengthRefusal else none := by
  have inside : ¬ ¬ inRange 1 fieldCount field = true := not_not_intro (inRange_of_bounds ranged)
  unfold State.writeRefusal State.maintenanceRefusal
  rw [if_neg inside]
  split
  · rfl
  · split <;> rfl

/-! ### Requests -/

theorem exec_profileWrite {field : Byte} {value : Word} :
    exec (.profileWrite field value) s = .next (s.takeFrame .pp fun s =>
      match s.writeRefusal field.toNat value with
      | some refusal => s.respond .pp 0x16#8 refusal []
      | none =>
        (s.withProf { s.prof with working := s.prof.working.write field.toNat value, bad := true }).respond .pp 0x16#8 .ok
          (u8 field.toNat ++ u32 ((s.prof.working.write field.toNat value).field field.toNat))) := rfl

/-- What a request does that changes the profile alone and is answered. -/
theorem profileReply (s : State) (f : Profile) (k : Byte) (r : Result) (l : List Byte) :
    s.onlyChanges (((s.taken .pp).withProf f).respond .pp k r l) [.prof, .pp] ∧
      (((s.taken .pp).withProf f).respond .pp k r l).prof = f ∧
      s.repliedPlain (((s.taken .pp).withProf f).respond .pp k r l) .pp k r l :=
  ⟨respond_frame_of (onlyChanges_trans (onlyChanges_mono (taken_frame s .pp) (by decide))
      (onlyChanges_mono (withProf_frame _ f) (by decide))) (by decide) _ _ _, rfl, repliedPlain_respond _ _ _ rfl⟩

theorem exec_taken {c : Instr} {p : Port} {act : State → State} (free : s.free p) (takes : exec c s = .next (s.takeFrame p act)) :
    exec c s = .next (act (s.taken p)) := takes.trans (congrArg Host.Outcome.next (takeFrame_free free act))

/-- A field of an image after a write (R163). -/
theorem word_write (image : Image) {id j : Nat} (value : Word) (ranged : 1 ≤ id ∧ id ≤ 158) (first : 1 ≤ j) (last : j ≤ 158) :
    (image.write id value).word j = if j = id then value else image.word j := by
  have bounds : j - 1 < 158 := by omega
  unfold Image.write
  rw [if_pos ranged.1, word_eq _ bounds, word_eq image bounds]
  show (image.setIfInBounds (id - 1) value)[j - 1] = if j = id then value else image[j - 1]
  rw [Vector.getElem_setIfInBounds]
  exact if_congr (by omega) rfl rfl

theorem exec_profileRead {field image : Byte} :
    exec (.profileRead field image) s = .next (s.takeFrame .pp fun s =>
      match ImageName.ofCode image with
      | none => s.respond .pp 0x15#8 .badField []
      | some name =>
        if ¬inRange 1 fieldCount field.toNat then s.respond .pp 0x15#8 .badField []
        else
          match name, s.prof.activity with
          | .stored, .storing _ => s.respond .pp 0x15#8 .busy []
          | .stored, _ => s.respond .pp 0x15#8 .ok (u8 field.toNat ++ u8 name.code ++ u32 (s.prof.stored.field field.toNat))
          | .working, _ =>
            s.respond .pp 0x15#8 .ok (u8 field.toNat ++ u8 name.code ++ u32 (s.shownWorking.field field.toNat))) := rfl

theorem ofCode_eq_none_iff (code : Byte) : ImageName.ofCode code = none ↔ code ≠ 1#8 ∧ code ≠ 2#8 := by
  have one : code = 1#8 ↔ code.toNat = 1 := BitVec.toNat_inj.symm
  have two : code = 2#8 ↔ code.toNat = 2 := BitVec.toNat_inj.symm
  rw [Ne, Ne, one, two]
  unfold ImageName.ofCode
  split <;> simp_all

section Reading
variable {field : Byte} (free : s.free .pp) (ranged : 1 ≤ field.toNat ∧ field.toNat ≤ 158)
include free ranged

theorem profileRead_working : s.onlyAnswers (.profileRead field 1#8) .pp 0x15#8 .ok
    (u8 field.toNat ++ u8 1 ++ u32 (s.shownWorking.word field.toNat).toNat) :=
  onlyAnswers_of free exec_profileRead (if_neg (not_not_intro (inRange_of_bounds ranged)))

theorem profileRead_stored (still : ∀ source, s.prof.activity ≠ .storing source) : s.onlyAnswers (.profileRead field 2#8) .pp 0x15#8 .ok
    (u8 field.toNat ++ u8 2 ++ u32 (s.prof.stored.word field.toNat).toNat) := by
  refine onlyAnswers_of free exec_profileRead ((if_neg (not_not_intro (inRange_of_bounds ranged))).trans ?_)
  rw [taken_prof]
  cases doing : s.prof.activity with
  | storing source => exact absurd doing (still source)
  | idle => rfl
  | verifying purpose image => rfl

theorem profileRead_busy {source : Image} (storing : s.prof.activity = .storing source) :
    s.onlyAnswers (.profileRead field 2#8) .pp 0x15#8 .busy [] := by
  refine onlyAnswers_of free exec_profileRead ((if_neg (not_not_intro (inRange_of_bounds ranged))).trans ?_)
  rw [taken_prof, storing]

end Reading

/-- Settles O28. -/
theorem profileFieldsAreReadAndWritten : Obligations.ProfileFieldsAreReadAndWritten := by
  intro s field image value free
  dsimp only
  have refuses {r : Result} (refused : s.writeRefusal field.toNat value = some r) :
      s.onlyAnswers (.profileWrite field value) .pp 0x16#8 r [] := by
    refine onlyAnswers_of free exec_profileWrite ?_
    have refused : (s.taken .pp).writeRefusal field.toNat value = some r := refused
    rw [refused]
  refine ⟨fun ranged one still => ?_, fun purpose examined ranged one verifying => ?_, fun ranged two still => ?_,
    fun ranged two storing => ?_, fun bad => ?_, fun ranged mode idle allowed => ?_, fun out => refuses (writeRefusal_of_range out),
    fun ranged mode => refuses ?_, fun ranged mode busy => refuses ?_, fun ranged mode idle changes held => refuses ?_,
    fun ranged mode idle changes empty check => refuses ?_⟩
  · subst one
    have shown : s.shownWorking = s.prof.working := by
      unfold State.shownWorking
      split
      · next purpose examined verifying => exact absurd verifying (still purpose examined)
      · rfl
    have answer := profileRead_working free ranged
    rw [shown] at answer; exact answer
  · subst one
    have shown : s.shownWorking = examined := by unfold State.shownWorking; rw [verifying]
    have answer := profileRead_working free ranged
    rw [shown] at answer; exact answer
  · subst two; exact profileRead_stored free ranged still
  · subst two; obtain ⟨source, storing⟩ := storing; exact profileRead_busy free ranged storing
  · refine onlyAnswers_of free exec_profileRead ?_
    rcases bad with out | unnamed
    · cases ImageName.ofCode image with
      | none => rfl
      | some name => exact if_pos fun ranged => out (inRange_bounds ranged)
    · rw [(ofCode_eq_none_iff image).mpr unnamed]
  · have accepted : (s.taken .pp).writeRefusal field.toNat value = none := by
      rw [writeRefusal_of_ranged ranged, maintenanceRefusal_of_idle (s := s.taken .pp) mode idle]
      dsimp only
      split
      · next changes =>
        obtain ⟨empty, noCheck⟩ := allowed ⟨changes.1, fun same => changes.2 same.symm⟩
        exact lengthRefusal_of_empty (s := s.taken .pp) empty noCheck
      · rfl
    have written : (s.prof.working.write field.toNat value).field field.toNat = value.toNat := by
      unfold Image.field; rw [word_write _ _ ranged ranged.1 ranged.2, if_pos rfl]
    obtain ⟨frame, prof, reply⟩ := profileReply s { s.prof with working := s.prof.working.write field.toNat value, bad := true } 0x16#8 .ok
      (u8 field.toNat ++ u32 value.toNat)
    refine ⟨_, ?_, frame, by rw [prof], Bool.or_true _, fun j first last => word_write _ _ ranged first last, reply⟩
    rw [exec_taken free exec_profileWrite, accepted, taken_prof, written]
  · rw [writeRefusal_of_ranged ranged, maintenanceRefusal_of_mode mode]
  · rw [writeRefusal_of_ranged ranged, maintenanceRefusal_of_busy mode busy]
  · rw [writeRefusal_of_ranged ranged, maintenanceRefusal_of_idle mode idle]
    exact (if_pos ⟨changes.1, fun same => changes.2 same.symm⟩).trans (lengthRefusal_of_book held)
  · rw [writeRefusal_of_ranged ranged, maintenanceRefusal_of_idle mode idle]
    exact (if_pos ⟨changes.1, fun same => changes.2 same.symm⟩).trans (lengthRefusal_of_check empty check)

/-! ### Stores (R164) -/

theorem exec_profileStore :
    exec .profileStore s = .next (s.takeFrame .pp fun s =>
      match s.maintenanceRefusal with
      | some refusal => s.respond .pp 0x17#8 refusal []
      | none => s.startStore.respond .pp 0x17#8 .started []) := rfl

theorem exec_profileStoreCompletion {source : Image} (storing : s.prof.activity = .storing source) :
    exec .profileStoreCompletion s = .next ((s.withProf { s.prof with stored := source, activity := .idle }).raise .pp .profile) := by
  show execProfileStoreCompletion s = _
  unfold execProfileStoreCompletion
  rw [storing]

/-- Settles O29. -/
theorem storeWritesTheTakenImage : Obligations.StoreWritesTheTakenImage := by
  intro s
  refine ⟨fun free mode idle => ?_, fun free mode => ?_, fun free mode busy => ?_, fun source storing => ?_, fun still => ?_⟩
  · have accepted : (s.taken .pp).maintenanceRefusal = none := maintenanceRefusal_of_idle (s := s.taken .pp) mode idle
    obtain ⟨frame, prof, reply⟩ := profileReply s
      { s.prof with stored := s.prof.stored.write fieldCount allOnes, activity := .storing s.prof.working } 0x17#8 .started []
    have whole : 1 ≤ fieldCount ∧ fieldCount ≤ 158 := ⟨by decide, by decide⟩
    refine ⟨_, ?_, frame, by rw [prof], ?_, fun j first last => ?_, reply⟩
    · rw [exec_taken free exec_profileStore, accepted]; rfl
    · exact (word_write _ allOnes whole (by decide) (by decide)).trans (if_pos rfl)
    · exact (word_write _ allOnes whole first (by omega)).trans (if_neg (by unfold fieldCount; omega))
  · refine onlyAnswers_of free exec_profileStore ?_
    rw [maintenanceRefusal_of_mode (s := s.taken .pp) mode]
  · refine onlyAnswers_of free exec_profileStore ?_
    rw [maintenanceRefusal_of_busy (s := s.taken .pp) mode busy]
  · exact ⟨_, exec_profileStoreCompletion storing, onlyChanges_trans (onlyChanges_mono (withProf_frame s _) (by decide))
      (onlyChanges_mono (raise_frame _ .pp _) (by decide)), rfl, port_raise _ .pp _⟩
  · show execProfileStoreCompletion s = _
    unfold execProfileStoreCompletion
    split
    · next source storing => exact absurd storing (still source)
    · rfl

/-! ### Checks that start (R160, R165, R166, R168) -/

theorem exec_profileLoad :
    exec .profileLoad s = .next (s.takeFrame .pp fun s =>
      match s.loadRefusal with
      | some refusal => s.respond .pp 0x18#8 refusal []
      | none =>
        ((s.withProf { s.prof with working := s.prof.stored, bad := true }).startCheckOf .plain).respond .pp 0x18#8 .started []) := rfl

theorem exec_enterService :
    exec .enterService s = .next (s.takeFrame .pp fun s =>
      match s.maintenanceRefusal with
      | some refusal => s.respond .pp 0x1A#8 refusal []
      | none => (s.startCheckOf .entry).respond .pp 0x1A#8 .started []) := rfl

theorem exec_profileCheck :
    exec .profileCheck s = .next (s.takeFrame .pp fun s =>
      if s.profileBusy ∨ s.prof.mode = .checking then s.respond .pp 0x19#8 .busy []
      else (s.startCheckOf .plain).respond .pp 0x19#8 .started []) := rfl

theorem loadRefusal_of_refused {r : Result} (refused : s.maintenanceRefusal = some r) : s.loadRefusal = some r := by
  unfold State.loadRefusal; rw [refused]

theorem loadRefusal_of_accepted (accepted : s.maintenanceRefusal = none) :
    s.loadRefusal =
      if s.prof.stored.word 2 ≠ s.prof.working.word 2 ∨ s.prof.stored.word 3 ≠ s.prof.working.word 3 then s.lengthRefusal else none := by
  unfold State.loadRefusal; rw [accepted]

/-- Settles O30. -/
theorem checksStartOnTheWorkingImage : Obligations.ChecksStartOnTheWorkingImage := by
  intro s free
  dsimp only
  have loads {r : Result} (refused : s.loadRefusal = some r) : s.onlyAnswers .profileLoad .pp 0x18#8 r [] := by
    refine onlyAnswers_of free exec_profileLoad ?_
    have refused : (s.taken .pp).loadRefusal = some r := refused
    rw [refused]
  have enters {r : Result} (refused : s.maintenanceRefusal = some r) : s.onlyAnswers .enterService .pp 0x1A#8 r [] := by
    refine onlyAnswers_of free exec_enterService ?_
    have refused : (s.taken .pp).maintenanceRefusal = some r := refused
    rw [refused]
  refine ⟨fun mode idle allowed => ?_, fun mode idle changes held => loads ?_, fun mode idle changes empty check => loads ?_,
    fun mode idle => ?_, fun mode idle => ?_, fun mode => ?_, fun mode busy => ?_, fun busy => ?_⟩
  · have accepted : (s.taken .pp).loadRefusal = none := by
      rw [loadRefusal_of_accepted (maintenanceRefusal_of_idle (s := s.taken .pp) mode idle)]
      split
      · next changes =>
        obtain ⟨empty, noCheck⟩ := allowed changes
        exact lengthRefusal_of_empty (s := s.taken .pp) empty noCheck
      · rfl
    obtain ⟨frame, prof, reply⟩ := profileReply s
      { s.prof with working := s.prof.stored, bad := true, activity := .verifying .plain s.prof.stored } 0x18#8 .started []
    exact ⟨_, by rw [exec_taken free exec_profileLoad, accepted]; rfl, frame, reply, prof⟩
  · rw [loadRefusal_of_accepted (maintenanceRefusal_of_idle mode idle), if_pos changes]; exact lengthRefusal_of_book held
  · rw [loadRefusal_of_accepted (maintenanceRefusal_of_idle mode idle), if_pos changes]; exact lengthRefusal_of_check empty check
  · obtain ⟨frame, prof, reply⟩ := profileReply s { s.prof with activity := .verifying .plain s.prof.working } 0x19#8 .started []
    refine ⟨_, ?_, frame, reply, prof⟩
    have ready : ¬ ((s.taken .pp).profileBusy = true ∨ (s.taken .pp).prof.mode = .checking) :=
      fun no => no.elim (fun busy => profileBusy_iff.mp busy idle) mode
    rw [exec_taken free exec_profileCheck, if_neg ready]
    rfl
  · have accepted : (s.taken .pp).maintenanceRefusal = none := maintenanceRefusal_of_idle (s := s.taken .pp) mode idle
    obtain ⟨frame, prof, reply⟩ := profileReply s { s.prof with activity := .verifying .entry s.prof.working } 0x1A#8 .started []
    exact ⟨_, by rw [exec_taken free exec_enterService, accepted]; rfl, frame, reply, prof⟩
  · exact ⟨loads (loadRefusal_of_refused (maintenanceRefusal_of_mode mode)), enters (maintenanceRefusal_of_mode mode)⟩
  · exact ⟨loads (loadRefusal_of_refused (maintenanceRefusal_of_busy mode busy)), enters (maintenanceRefusal_of_busy mode busy)⟩
  · exact onlyAnswers_of free exec_profileCheck (if_pos (.inl (profileBusy_iff.mpr busy)))

/-! ### The background check (R157, R170) -/

/-- Settles O34. -/
theorem backgroundCheckFollowsAMemoryFault : Obligations.BackgroundCheckFollowsAMemoryFault := by
  refine ⟨fun s field value first last => ⟨_, rfl, withProf_frame s _, rfl, fun j lo hi => word_write _ value ⟨first, last⟩ lo hi⟩,
    fun s u taken service => ?_⟩
  obtain ⟨due, hd, le⟩ := takenAt_due taken
  refine ⟨due, u.takeBackground, hd, le, exec_row_of_takenAt taken, takeBackground_frame u, ?_⟩
  have goesOn : u.takeBackground =
      if u.profileBusy then u.withProf { u.prof with background := some (u.now + 3600) }
      else (u.withProf { u.prof with background := some (u.now + 3600) }).startCheckOf .plain := if_pos service
  rw [goesOn]
  have loaded (busy : u.prof.activity ≠ .idle) :
      (if u.profileBusy then u.withProf { u.prof with background := some (u.now + 3600) }
        else (u.withProf { u.prof with background := some (u.now + 3600) }).startCheckOf .plain).prof =
      { u.prof with background := some (u.now + 3600) } := by rw [if_pos (profileBusy_iff.mpr busy)]; rfl
  cases doing : u.prof.activity with
  | idle => rw [if_neg fun busy => profileBusy_iff.mp busy doing]; rfl
  | verifying purpose image =>
    rw [loaded (by rw [doing]; nofun)]
    exact congrArg (fun a => { u.prof with activity := a, background := some (u.now + 3600) }) doing
  | storing source =>
    rw [loaded (by rw [doing]; nofun)]
    exact congrArg (fun a => { u.prof with activity := a, background := some (u.now + 3600) }) doing

/-! ### ENTER MAINTENANCE (R169) -/

theorem exec_enterMaintenance :
    exec .enterMaintenance s = .next (s.takeFrame .pp fun s =>
      match s.prof.mode with
      | .checking => s.respond .pp 0x1B#8 .wrongMode []
      | .maintenance => s.respond .pp 0x1B#8 .wrongMode []
      | .faulted => (s.setMode .maintenance).respond .pp 0x1B#8 .ok []
      | .service =>
        if s.anyActive .compressor || s.anyActive .turbine then s.respond .pp 0x1B#8 .trainActive []
        else ((s.setMode .maintenance).leaveService).respond .pp 0x1B#8 .ok []) := rfl

theorem setMode_port (s : State) (m : Mode) (p : Port) :
    (s.setMode m).port p =
      if p = .pp then s.port .pp else { s.port p with causes := (s.port p).causes ||| Cause.mask p .mode } := by
  unfold State.setMode
  cases p
  · rw [port_raise_ne _ _ _ _ (by decide), port_raise_ne _ _ _ _ (by decide)]; rfl
  · rw [port_raise_ne _ _ _ _ (by decide), port_raise]; rfl
  · rw [port_raise, port_raise_ne _ _ _ _ (by decide)]; rfl

theorem port_respond_ne (s : State) {p q : Port} (k : Byte) (r : Result) (f : List Byte) (ne : q ≠ p) :
    (s.respond p k r f).port q = s.port q := port_setPort_ne s p q _ ne

theorem leaveService_port (s : State) (p : Port) : s.leaveService.port p = s.port p := rfl

/-- A change of mode that is answered on the plant port raises MODE on the other two. -/
theorem raisedOnly_mode (s : State) (m : Mode) {p : Port} (ne : p ≠ .pp) (same : u.port p = ((s.taken .pp).setMode m).port p) (k : Byte)
    (r : Result) (f : List Byte) : s.raisedOnly (u.respond .pp k r f) p .mode := by
  unfold State.raisedOnly
  rw [port_respond_ne u k r f ne, same, setMode_port, if_neg ne, port_taken_ne s .pp p ne]

theorem anyActive_or : (s.anyActive .compressor || s.anyActive .turbine) = true ↔ ∃ x : Train, (s.train x).state.active = true := by
  rw [Bool.or_eq_true, anyActive_iff, anyActive_iff]
  constructor
  · rintro (⟨x, -, active⟩ | ⟨x, -, active⟩) <;> exact ⟨x, active⟩
  · rintro ⟨x, active⟩
    cases kind : x.kind with
    | compressor => exact .inl ⟨x, kind, active⟩
    | turbine => exact .inr ⟨x, kind, active⟩

/-- Settles O35. -/
theorem maintenanceIsEnteredAtRest : Obligations.MaintenanceIsEnteredAtRest := by
  intro s free
  refine ⟨fun mode idle => ?_, fun mode active => ?_, fun mode => ?_, fun mode => ?_⟩
  · have rest : ¬ ((s.taken .pp).anyActive .compressor || (s.taken .pp).anyActive .turbine) = true := fun some => by
      obtain ⟨x, active⟩ := anyActive_or.mp some
      exact absurd (idle x) (by rw [← taken_train s .pp x, active]; decide)
    refine ⟨(((s.taken .pp).setMode .maintenance).leaveService).respond .pp 0x1B#8 .ok [], ?_, ?_, rfl, rfl, rfl, ?_, ?_, ?_⟩
    · rw [exec_taken free exec_enterMaintenance, taken_prof, mode]
      exact congrArg Host.Outcome.next (if_neg rest)
    · exact respond_frame_of (onlyChanges_trans (onlyChanges_mono (taken_frame s .pp) (by decide))
        (onlyChanges_trans (onlyChanges_mono (setMode_frame _ _) (by decide)) (onlyChanges_mono (leaveService_frame _) (by decide))))
        (by decide) _ _ _
    · exact raisedOnly_mode s .maintenance (by decide) (leaveService_port _ _) _ _ _
    · exact raisedOnly_mode s .maintenance (by decide) (leaveService_port _ _) _ _ _
    · exact repliedPlain_respond _ _ _ ((leaveService_port _ _).trans (setMode_port (s.taken .pp) .maintenance .pp))
  · refine onlyAnswers_of free exec_enterMaintenance ?_
    rw [taken_prof, mode]
    exact if_pos (anyActive_or.mpr active)
  · refine ⟨((s.taken .pp).setMode .maintenance).respond .pp 0x1B#8 .ok [], ?_, ?_, rfl, ?_, ?_, ?_⟩
    · rw [exec_taken free exec_enterMaintenance, taken_prof, mode]
    · exact respond_frame_of (onlyChanges_trans (onlyChanges_mono (taken_frame s .pp) (by decide))
        (onlyChanges_mono (setMode_frame _ _) (by decide))) (by decide) _ _ _
    · exact raisedOnly_mode s .maintenance (by decide) rfl _ _ _
    · exact raisedOnly_mode s .maintenance (by decide) rfl _ _ _
    · exact repliedPlain_respond _ _ _ (setMode_port (s.taken .pp) .maintenance .pp)
  · refine onlyAnswers_of free exec_enterMaintenance ?_
    rw [taken_prof]
    rcases mode with mode | mode <;> rw [mode]

/-! ### A check that fails (R160, R161, R171) -/

/-- A trip raises no other cause of any port. -/
theorem trip_flagged_other (s : State) (x : Train) (reason : TripReason) (p : Port) {c : Cause} (trip : c ≠ .trip) (capacity : c ≠ .capacity) :
    s.flagged (s.trip x reason) p c False := by
  have trips := trip_trips s x reason
  generalize s.trip x reason = v at trips
  cases p with
  | pp =>
    have same : v.port .pp = (s.raise .pp .trip).port .pp := trips.plant.trans (port_raise s .pp .trip).symm
    exact flagged_congr (flagged_trans (flagged_raise_other s .pp .pp trip.symm) (flagged_of_causes (by rw [same]))) or_self_iff
  | tp =>
    have same : v.port .tp = (s.raise .tp .capacity).port .tp := trips.trade.trans (port_raise s .tp .capacity).symm
    exact flagged_congr (flagged_trans (flagged_raise_other s .tp .tp capacity.symm) (flagged_of_causes (by rw [same]))) or_self_iff
  | gp => exact flagged_of_frame trips.frame

/-- A fold of steps that leave a flag leaves it. -/
theorem foldl_flagged_false {α : Type} {f : State → α → State} {p : Port} {c : Cause} (h : ∀ (s : State) (a : α), s.flagged (f s a) p c False) :
    ∀ (as : List α) (s : State), s.flagged (as.foldl f s) p c False
  | [], _ => flagged_of_causes rfl
  | a :: as, s => flagged_congr (flagged_trans (h s a) (foldl_flagged_false h as (f s a))) or_self_iff

theorem tripActive_flagged_other (s : State) (reason : TripReason) (p : Port) {c : Cause} (trip : c ≠ .trip) (capacity : c ≠ .capacity) :
    s.flagged (s.tripActive reason) p c False :=
  foldl_flagged_false (fun u x => by
    unfold State.tripIfActive; split
    · exact trip_flagged_other u x reason p trip capacity
    · exact flagged_of_causes rfl) _ s

/-- What the trips of all active trains do is also done from an earlier state that differs in nothing they look at. -/
theorem tripsActive_of_earlier {v : State} {reason : TripReason} (f : s.onlyChanges u [.prof, .tp, .gp]) (h : u.TripsActive v reason)
    (capacity : s.flagged u .tp .capacity False) : s.TripsActive v reason := by
  have train (x : Train) : u.train x = s.train x := train_congr (frame_trc f) x
  have cfg : u.cfg = s.cfg := cfg_congr (frame_settings f)
  have now : u.now = s.now := frame_now f
  have emptied (k : Kind) : u.emptied v k ↔ s.emptied v k := by unfold State.emptied; simp only [train]
  have dwell := h.dwell
  refine
    { tripped := fun x active => by rw [← train x] at active ⊢; exact h.tripped x active
      others := fun x idle => by rw [← train x] at idle ⊢; exact h.others x idle
      generation := by rw [h.generation, frame_trc f]; simp only [train]
      dwell := ⟨by rw [← cfg, ← now, ← emptied]; exact dwell.turbines, by rw [← cfg, ← now, ← emptied, ← emptied]; exact dwell.compressors,
        by rw [← cfg, ← emptied, ← emptied, ← frame_du f]; exact dwell.kept⟩
      trip := flagged_congr (flagged_trans (flagged_of_frame f) h.trip) (by simp only [train, false_or])
      capacity := flagged_congr (flagged_trans capacity h.capacity) (by simp only [train, false_or])
      reviews := by have := h.reviews; rw [frame_prj f] at this; simpa only [train] using this }

/-- And what comes after them may zero the Dispatch Unit's values but the dwell, and the setpoints. -/
theorem tripsActive_leaveService {reason : TripReason} (h : s.TripsActive t reason) : s.TripsActive t.leaveService reason := by
  have f := leaveService_frame t
  refine
    { tripped := fun x active => ?_, others := fun x idle => h.others x idle, generation := h.generation
      dwell := dwellFollows_congr h.dwell (fun _ => rfl) rfl rfl, trip := h.trip, capacity := h.capacity
      reviews := afterRequests_congr h.reviews rfl rfl rfl }
  obtain ⟨record, permit, -⟩ := h.tripped x active
  exact ⟨record, permit, by cases x <;> rfl⟩

theorem tripsActive_raise {p : Port} {c : Cause} {reason : TripReason} (trip : c ≠ .trip) (capacity : c ≠ .capacity)
    (h : s.TripsActive t reason) : s.TripsActive (t.raise p c) reason where
  tripped x active := h.tripped x active
  others x idle := h.others x idle
  generation := h.generation
  dwell := dwellFollows_congr h.dwell (fun _ => rfl) rfl rfl
  trip := flagged_congr (flagged_trans h.trip (flagged_raise_other t .pp p trip)) (by rw [or_false])
  capacity := flagged_congr (flagged_trans h.capacity (flagged_raise_other t .tp p capacity)) (by rw [or_false])
  reviews := afterRequests_congr h.reviews rfl rfl rfl

theorem modeAfterFail_of_leaves {purpose : Purpose} (powerUp : purpose = .powerUp) (checking : s.prof.mode = .checking) :
    s.modeAfterFail purpose = s.setMode .maintenance := by
  unfold State.modeAfterFail; rw [powerUp, checking]

theorem modeAfterFail_of_faults {purpose : Purpose} (plain : purpose = .plain) (service : s.prof.mode = .service) :
    s.modeAfterFail purpose = s.enterFaulted := by
  unfold State.modeAfterFail; rw [plain, service]

theorem modeAfterFail_of_stays {purpose : Purpose} (notLeaves : ¬ (purpose = .powerUp ∧ s.prof.mode = .checking))
    (notFaults : ¬ (purpose = .plain ∧ s.prof.mode = .service)) : s.modeAfterFail purpose = s := by
  unfold State.modeAfterFail
  split
  · next checking => exact absurd ⟨rfl, checking⟩ notLeaves
  · next service => exact absurd ⟨rfl, service⟩ notFaults
  · rfl

/-- The state once a check that failed has been recorded, before the mode changes (R160). -/
def noted (s : State) (field : Nat) : State :=
  s.withProf { s.prof with bad := true, lastCheck := .fail, failingField := field, activity := .idle }

theorem checkFailed_eq (s : State) (purpose : Purpose) (field : Nat) :
    s.checkFailed purpose field = ((noted s field).modeAfterFail purpose).raise .pp .profile := rfl

theorem exec_checkCompletion_of_fail {purpose : Purpose} {image : Image} {n : Nat} (verifying : s.prof.activity = .verifying purpose image)
    (fails : failingField image = some n) :
    exec .profileCheckCompletion s = .next (((noted s n).modeAfterFail purpose).raise .pp .profile) := by
  rw [← checkFailed_eq]
  show execProfileCheckCompletion s = _
  unfold execProfileCheckCompletion
  rw [verifying]
  dsimp only
  rw [fails]

theorem raise_profile_set (s : State) :
    ((s.raise .pp .profile).port .pp).causes &&& Cause.mask .pp .profile = Cause.mask .pp .profile :=
  (flagged_raise_self s .pp .profile).1 trivial

theorem enterFaulted_eq (s : State) : s.enterFaulted = ((s.setMode .faulted).tripActive .coord).leaveService := rfl

/-- A check that fails in SERVICE trips the active trains (R110, R171). -/
theorem enterFaulted_tripsActive (s : State) : s.TripsActive s.enterFaulted .coord := by
  rw [enterFaulted_eq]
  refine tripsActive_leaveService (tripsActive_of_earlier (setMode_frame s .faulted) (tripActive_tripsActive _ .coord) ?_)
  have trade : ((s.setMode .faulted).port .tp).causes = ((s.raise .tp .mode).port .tp).causes := by rw [setMode_port, port_raise]; rfl
  exact flagged_congr (flagged_trans (flagged_raise_other s .tp .tp (by decide)) (flagged_of_causes trade)) or_self_iff

theorem enterFaulted_rsv (s : State) : s.enterFaulted.rsv = { s.rsv with granted := 0 } := by
  rw [enterFaulted_eq]
  have rsv : ((s.setMode .faulted).tripActive .coord).rsv = s.rsv :=
    frame_rsv (s := s.setMode .faulted) (tripActive_frame (s.setMode .faulted) .coord)
  generalize (s.setMode .faulted).tripActive .coord = v at rsv
  show { v.rsv with granted := 0 } = _
  rw [rsv]

theorem enterFaulted_prof (s : State) : s.enterFaulted.prof = { s.prof with mode := .faulted, background := none } := by
  rw [enterFaulted_eq]
  have prof : ((s.setMode .faulted).tripActive .coord).prof = { s.prof with mode := .faulted } :=
    frame_prof (tripActive_frame (s.setMode .faulted) .coord)
  generalize (s.setMode .faulted).tripActive .coord = v at prof
  show { v.prof with background := none } = _
  rw [prof]

theorem enterFaulted_gp (s : State) : s.raisedOnly s.enterFaulted .gp .mode := by
  unfold State.raisedOnly
  rw [enterFaulted_eq, leaveService_port, port_of_onlyChanges (tripActive_frame _ _) .gp (by decide), setMode_port, if_neg (by decide)]

theorem enterFaulted_tp (s : State) : (s.enterFaulted.port .tp).causes &&& Cause.mask .tp .mode = Cause.mask .tp .mode := by
  have raised : s.flagged (s.setMode .faulted) .tp .mode True :=
    flagged_of_raisedOnly (by unfold State.raisedOnly; rw [setMode_port, if_neg (by decide)])
  rw [enterFaulted_eq, leaveService_port]
  exact (flagged_trans raised (tripActive_flagged_other _ .coord .tp (by decide) (by decide))).1 (.inl trivial)

theorem enterFaulted_du (s : State) : ∃ d : DispatchUnit, s.enterFaulted.du = { d.zeroed with derateReported := false } := ⟨_, rfl⟩

theorem enterFaulted_permit (s : State) (x : Train) : s.enterFaulted.permit x = false := by
  rw [permit_eq]
  have idle : (s.enterFaulted.train x).state.active = false := tripActive_inactive _ _ x
  rw [idle, Bool.and_false]

/-- Nothing of the trips looks at the profile. -/
theorem tripsActive_of_withProf {f : Profile} {reason : TripReason} (h : (s.withProf f).TripsActive t reason) : s.TripsActive t reason :=
  tripsActive_of_earlier (onlyChanges_mono (withProf_frame s f) (by decide)) h (flagged_of_causes rfl)

/-- Settles O32: a failing check is noted, and in SERVICE the trips of `State.TripsActive` follow. -/
theorem failingCheckFaultsService : Obligations.FailingCheckFaultsService := by
  refine fun s => ⟨fun purpose image n verifying fails => ?_, fun idle => ?_⟩
  · dsimp only
    have done := exec_checkCompletion_of_fail verifying fails
    have mode : (noted s n).prof.mode = s.prof.mode := rfl
    have f : s.onlyChanges (noted s n) [.prof] := withProf_frame s _
    by_cases leaves : purpose = .powerUp ∧ s.prof.mode = .checking
    · have notFaults : ¬ (purpose = .plain ∧ s.prof.mode = .service) := fun no => by rw [leaves.1] at no; cases no.1
      rw [modeAfterFail_of_leaves (s := noted s n) leaves.1 leaves.2] at done
      refine ⟨_, done, Bool.or_true _, ?_, raise_profile_set _, fun _ => ⟨?_, ?_, ?_⟩, fun no => absurd leaves no,
        fun no => absurd no notFaults⟩
      · rw [if_pos leaves, if_neg notFaults]; rfl
      · exact onlyChanges_trans (onlyChanges_mono f (by decide)) (onlyChanges_trans
          (onlyChanges_mono (setMode_frame _ .maintenance) (by decide)) (onlyChanges_mono (raise_frame _ .pp _) (by decide)))
      · unfold State.raisedOnly
        rw [port_raise_ne _ _ _ _ (by decide), setMode_port, if_neg (by decide)]; rfl
      · unfold State.raisedOnly
        rw [port_raise_ne _ _ _ _ (by decide), setMode_port, if_neg (by decide)]; rfl
    · by_cases faults : purpose = .plain ∧ s.prof.mode = .service
      · rw [modeAfterFail_of_faults (s := noted s n) faults.1 faults.2] at done
        have trips : s.TripsActive (noted s n).enterFaulted .coord := tripsActive_of_withProf (enterFaulted_tripsActive (noted s n))
        have prof := enterFaulted_prof (noted s n)
        have rsv := enterFaulted_rsv (noted s n)
        have grid := enterFaulted_gp (noted s n)
        have trade := enterFaulted_tp (noted s n)
        have permit := enterFaulted_permit (noted s n)
        obtain ⟨d, du⟩ := enterFaulted_du (noted s n)
        have g := enterFaulted_frame (noted s n)
        generalize (noted s n).enterFaulted = v at done trips prof rsv grid trade permit du g
        refine ⟨_, done, ?_, ?_, raise_profile_set _, fun yes => absurd yes leaves, fun _ no => absurd faults no, fun _ => ⟨?_, ?_, ?_, rsv,
          ?_⟩⟩
        · show (decide (v.prof.mode = .faulted) || v.prof.bad) = true
          rw [prof]; rfl
        · rw [if_neg leaves, if_pos faults, if_pos faults]; exact prof
        · exact onlyChanges_trans (onlyChanges_mono f (by decide)) (onlyChanges_trans (onlyChanges_mono g (by decide))
            (onlyChanges_mono (raise_frame _ .pp _) (by decide)))
        · exact (port_raise_ne v .pp .gp _ (by decide)).trans grid
        · rw [port_raise_ne v .pp .tp _ (by decide)]; exact trade
        · have zero : (v.raise .pp .profile).du = v.du := rfl
          rw [zero, du]
          exact ⟨rfl, rfl, rfl, rfl, rfl, rfl, rfl, fun x => ⟨zeroed_setpoint d x, permit x⟩,
            tripsActive_raise (by decide) (by decide) trips⟩
      · rw [modeAfterFail_of_stays (s := noted s n) leaves faults] at done
        refine ⟨_, done, Bool.or_true _, ?_, raise_profile_set _, fun yes => absurd yes leaves, fun _ _ => ?_, fun yes => absurd yes faults⟩
        · rw [if_neg leaves, if_neg faults, if_neg faults]; rfl
        · exact onlyChanges_trans (onlyChanges_mono f (by decide)) (onlyChanges_mono (raise_frame _ .pp _) (by decide))
  · show execProfileCheckCompletion s = _
    unfold execProfileCheckCompletion
    split
    · next purpose image verifying => exact absurd verifying (idle purpose image)
    · rfl

end Sys2Proof.Proofs
end

section
/-! ANCHOR (O17), and what the totalisers of a METER do to the account and its marks (R5 to R8). -/

namespace Sys2Proof.Proofs
open Sys2Proof Sys2Proof.Machine

variable {s t u : State}

/-! ### ANCHOR (R12 to R14) -/

theorem exec_anchor {pressure : Half} {heat : PerTier Word} :
    exec (.anchor pressure heat) s = .next (s.takeFrame .pp fun s =>
      if s.mayAnchor then
        (s.takeAnchor pressure.toNat heat).respond .pp 0x11#8 .ok
          (u32 (s.takeAnchor pressure.toNat heat).inv.mass ++ u32 (s.takeAnchor pressure.toNat heat).inv.heat.t1 ++
            u32 (s.takeAnchor pressure.toNat heat).inv.heat.t2 ++ u32 (s.takeAnchor pressure.toNat heat).inv.heat.t3 ++
            u32 (s.takeAnchor pressure.toNat heat).inv.epoch.toNat)
      else s.respond .pp 0x11#8 .wrongMode []) := rfl

/-- The account that an ANCHOR has set, with CLAMP where it clamped something (R13, R14). -/
def anchorSet (s : State) (pressure : Nat) (heat : PerTier Word) : State :=
  if s.anchorClamps pressure heat then (s.anchored pressure heat).raise .pp .clamp else s.anchored pressure heat

theorem takeAnchor_eq (s : State) (pressure : Nat) (heat : PerTier Word) :
    s.takeAnchor pressure heat = ((anchorSet s pressure heat).raise .tp .inventory).requestReview := rfl

theorem anchorSet_frame (s : State) (pressure : Nat) (heat : PerTier Word) : s.onlyChanges (anchorSet s pressure heat) [.inv, .pp] := by
  have f : s.onlyChanges (s.anchored pressure heat) [.inv, .pp] := onlyChanges_mono (withInv_frame s _) (by decide)
  unfold anchorSet
  split
  · exact onlyChanges_trans f (onlyChanges_mono (raise_frame _ .pp _) (by decide))
  · exact f

theorem anchorSet_inv (s : State) (pressure : Nat) (heat : PerTier Word) : (anchorSet s pressure heat).inv = (s.anchored pressure heat).inv := by
  unfold anchorSet; split <;> rfl

theorem anchorSet_pp (s : State) (pressure : Nat) (heat : PerTier Word) :
    (anchorSet s pressure heat).port .pp =
      { s.port .pp with
        causes := if s.anchorClamps pressure heat then (s.port .pp).causes ||| Cause.mask .pp .clamp else (s.port .pp).causes } := by
  unfold anchorSet
  split
  · exact port_raise _ .pp .clamp
  · rfl

theorem anchorClamps_iff {c : Settings} (loaded : s.settings = some c) (pressure : Nat) (heat : PerTier Word) :
    s.anchorClamps pressure heat = true ↔
      (pressure < c.firstPressure ∨ c.lastPressure < pressure ∨ c.tiers.t1.capacity < heat.t1.toNat ∨
        c.tiers.t2.capacity < heat.t2.toNat ∨ c.tiers.t3.capacity < heat.t3.toNat) := by
  unfold State.anchorClamps
  rw [cfg_of_settings loaded]
  show (decide (pressure < c.firstPressure) || decide (c.lastPressure < pressure) ||
    (decide (c.tiers.t1.capacity < heat.t1.toNat) || (decide (c.tiers.t2.capacity < heat.t2.toNat) ||
      (decide (c.tiers.t3.capacity < heat.t3.toNat) || false)))) = true ↔ _
  simp [or_assoc]

/-- A review request, with what comes after it that keeps the blocks a snapshot shows (R67, R70). -/
theorem reviewRequested_requestReview {l : List Part} (prj : u.prj = s.prj) (after : u.requestReview.onlyChanges t l)
    (kept : ∀ x ∈ [Part.prj, .inv, .trc, .book, .settings, .tb], x ∉ l := by decide) : s.reviewRequested t := by
  have g := requestReview_frame u
  exact reviewRequested_of prj (frame_prj after (kept _ (by decide))) ((frame_inv after (kept _ (by decide))).trans (frame_inv g))
    ((frame_trc after (kept _ (by decide))).trans (frame_trc g)) ((frame_book after (kept _ (by decide))).trans (frame_book g))
    ((frame_settings after (kept _ (by decide))).trans (frame_settings g)) ((frame_tb after (kept _ (by decide))).trans (frame_tb g))

/-- Settles O17: the account is set before INVENTORY is raised and the review requested. -/
theorem anchorSetsTheAccount : Obligations.AnchorSetsTheAccount := by
  intro s pressure heat free
  refine ⟨fun c loaded mode => ?_, fun refused => onlyAnswers_plant (onlyAnswers_of free exec_anchor (if_neg fun may => ?_))⟩
  · have may : (s.taken .pp).mayAnchor = true := by
      unfold State.mayAnchor
      rw [taken_settings, loaded, taken_prof]
      rcases mode with mode | mode <;> rw [mode] <;> rfl
    have inv := anchorSet_inv (s.taken .pp) pressure.toNat heat
    have plant := anchorSet_pp (s.taken .pp) pressure.toNat heat
    have clamps := anchorClamps_iff (s := s.taken .pp) loaded pressure.toNat heat
    have f := anchorSet_frame (s.taken .pp) pressure.toNat heat
    have done := exec_taken free (exec_anchor (pressure := pressure) (heat := heat))
    rw [if_pos may, takeAnchor_eq] at done
    generalize anchorSet (s.taken .pp) pressure.toNat heat = v at inv plant f done
    have g := requestReview_frame (v.raise .tp .inventory)
    have after : (v.raise .tp .inventory).requestReview.inv = v.inv := frame_inv (s := v.raise .tp .inventory) g
    have pp : (v.raise .tp .inventory).requestReview.port .pp = v.port .pp :=
      (port_of_onlyChanges g .pp (by decide)).trans (port_raise_ne v .tp .pp _ (by decide))
    have tp : (v.raise .tp .inventory).requestReview.port .tp = (v.raise .tp .inventory).port .tp := port_of_onlyChanges g .tp (by decide)
    have review (k : Byte) (l : List Byte) : s.reviewRequested ((v.raise .tp .inventory).requestReview.respond .pp k .ok l) :=
      reviewRequested_requestReview (u := v.raise .tp .inventory) (frame_prj (s := s.taken .pp) (t := v) f) (respond_frame _ .pp k .ok l)
    have frame : s.onlyChanges (v.raise .tp .inventory).requestReview [.inv, .prj, .pp, .tp] :=
      onlyChanges_trans (onlyChanges_mono (taken_frame s .pp) (by decide)) (onlyChanges_trans (onlyChanges_mono f (by decide))
        (onlyChanges_trans (onlyChanges_mono (raise_frame v .tp _) (by decide)) (onlyChanges_mono g (by decide))))
    generalize (v.raise .tp .inventory).requestReview = x at done after pp tp review frame
    refine ⟨_, done, respond_frame_of frame (by decide) _ _ _, ?_, review _ _, ?_, replied_respond _ _ _ ?_, ?_⟩
    · show x.inv = _
      rw [after, inv, ← cfg_of_settings loaded]
      rfl
    · unfold State.raisedOnly
      rw [port_respond_ne _ _ _ _ (by decide), tp, port_raise, port_of_onlyChanges f .tp (by decide), port_taken_ne s .pp .tp (by decide)]
    · rw [pp, plant, port_taken]
    · rw [port_respond, pp, plant, port_taken]
      exact if_congr clamps rfl rfl
  · unfold State.mayAnchor at may
    rw [taken_settings, taken_prof] at may
    rcases refused with unloaded | checking | faulted
    · rw [unloaded] at may; cases may
    · simp [checking] at may
    · simp [faulted] at may

/-! ### What a METER marks (R6, R8) -/

/-- Between `s` and `t` applications have saturated or not, and deltas have been discarded or not: CLAMP and the open record's marks
show it, and the trade port, the engine and every other block are untouched. -/
structure Marked (s t : State) (saturated discarded : Bool) : Prop where
  clamp : s.flagged t .pp .clamp (saturated = true ∨ discarded = true)
  slog : t.slog = { s.slog with
    current := s.slog.current.map fun r =>
      { r with
        flags :=
          { r.flags with clamped := r.flags.clamped || saturated, discontinuity := r.flags.discontinuity || discarded } } }

theorem Marked.unmarked (slog : t.slog = s.slog) (port : (t.port .pp).causes = (s.port .pp).causes) : Marked s t false false where
  clamp := flagged_congr (flagged_of_causes port) (by simp)
  slog := by simp [slog]

theorem Marked.trans {a b a' b' : Bool} (h : Marked s t a b) (g : Marked t u a' b') : Marked s u (a || a') (b || b') where
  clamp := flagged_congr (flagged_trans h.clamp g.clamp) (by simp only [Bool.or_eq_true]; grind)
  slog := by rw [g.slog, h.slog]; simp only [Option.map_map, Function.comp_def, Bool.or_assoc]

theorem marked_setClamped (s : State) : Marked s (s.clampEvent .setClamped) true false where
  clamp := flagged_congr (flagged_trans (flagged_raise_self s .pp .clamp) (flagged_of_frame (markRecord_frame _ _))) (by simp)
  slog := by
    unfold State.clampEvent
    rw [markRecord_slog]
    simp [RecordFlags.setClamped, State.raise]

theorem marked_setDiscontinuity (s : State) : Marked s (s.clampEvent .setDiscontinuity) false true where
  clamp := flagged_congr (flagged_trans (flagged_raise_self s .pp .clamp) (flagged_of_frame (markRecord_frame _ _))) (by simp)
  slog := by
    unfold State.clampEvent
    rw [markRecord_slog]
    simp [RecordFlags.setDiscontinuity, State.raise]

theorem marked_withInv (s : State) (v : Inventory) : Marked s (s.withInv v) false false := .unmarked rfl rfl

/-! ### One totaliser (R5 to R8) -/

/-- The account before a totaliser: a value, with nothing saturated or discarded yet. -/
def Account.of (value : Nat) : Account := { value := value, saturated := false, discarded := false }

/-- What one totaliser adds to an account does not depend on what was marked before. -/
theorem Account.after_eq (anchored increase : Bool) (rate elapsed top : Nat) (base : Option Word) (value : Word) (a : Account) :
    a.after anchored increase rate elapsed top base value =
      let b := (Account.of a.value).after anchored increase rate elapsed top base value
      { value := b.value, saturated := a.saturated || b.saturated, discarded := a.discarded || b.discarded } := by
  unfold Account.after Account.of
  cases base with
  | none => simp
  | some b => dsimp only; split_ifs <;> simp

/-- The difference of two totaliser values modulo 2^32 is the forward count across at most one wrap (R5). -/
theorem delta_eq (base value : Word) : delta base value = forwardCount base.toNat value.toNat := by
  unfold delta forwardCount
  rw [BitVec.toNat_sub]
  have := base.isLt
  have := value.isLt
  split <;> omega

theorem plausible_iff {c : Settings} (loaded : s.settings = some c) (rate elapsed d : Nat) :
    s.plausible rate elapsed d = true ↔ d ≤ rate * (elapsed + 2) := by
  unfold State.plausible; rw [loaded]; simp

theorem saturate_eq (anchored increase : Bool) (rate elapsed top : Nat) (b value : Word) (x : Nat)
    (plausible : forwardCount b.toNat value.toNat ≤ rate * (elapsed + 2)) :
    (Account.of x).after anchored increase rate elapsed top (some b) value =
      if anchored then
        { value := saturate increase top x (forwardCount b.toNat value.toNat)
          saturated := saturates increase top x (forwardCount b.toNat value.toNat), discarded := false }
      else Account.of x := by
  unfold Account.after Account.of saturate saturates
  dsimp only
  rw [if_neg (Nat.not_lt.mpr plausible)]
  cases anchored <;> cases increase <;> simp

theorem after_of_implausible (anchored increase : Bool) (rate elapsed top : Nat) (b value : Word) (x : Nat)
    (implausible : ¬ forwardCount b.toNat value.toNat ≤ rate * (elapsed + 2)) :
    (Account.of x).after anchored increase rate elapsed top (some b) value = { value := x, saturated := false, discarded := true } := by
  unfold Account.after Account.of
  exact if_pos (Nat.not_le.mp implausible)

end Sys2Proof.Proofs
end

section
/-! The totalisers of a METER one after another (R4 step 2): the account, its marks and the baselines. -/

namespace Sys2Proof.Proofs
open Sys2Proof Sys2Proof.Machine

variable {s t u : State} {c : Settings}

theorem anchored_eq_decide (x : InventoryStatus) : x.anchored = decide (x ≠ .unanchored) := by cases x <;> rfl

theorem perTier_set_get {α : Type} (v : PerTier α) (k : Tier) : v.set k (v.get k) = v := by cases k <;> rfl

/-- A condition's branches that differ by a mark alone. -/
theorem marked_clampIf (s : State) (v : Inventory) (saturated : Bool) :
    Marked s (if saturated then (s.withInv v).clampEvent .setClamped else s.withInv v) saturated false := by
  cases saturated
  · exact marked_withInv s v
  · exact (marked_withInv s v).trans (marked_setClamped (s.withInv v))

theorem inv_clampIf (s : State) (v : Inventory) (saturated : Bool) :
    (if saturated then (s.withInv v).clampEvent .setClamped else s.withInv v).inv = v := by
  cases saturated
  · rfl
  · exact frame_inv (s := s.withInv v) (clampEvent_frame (s.withInv v) .setClamped)

/-! ### One totaliser -/

/-- The account after a totaliser of mass, by itself (R5 to R8). -/
def massStep (s : State) (c : Settings) (elapsed : Nat) (report : MeterReport) (x : Train) (a : Account) : Account :=
  a.after (decide (s.inv.status ≠ .unanchored)) (decide (x.kind = .compressor)) (c.trains.get x).massRate elapsed c.lastMass
    (s.inv.massBase.get x) (report.trains.get x).mass

theorem applyMass_account (loaded : s.settings = some c) {x : Train} {elapsed : Nat} {b value : Word}
    (plausible : forwardCount b.toNat value.toNat ≤ (c.trains.get x).massRate * (elapsed + 2)) :
    let a := (Account.of s.inv.mass).after (decide (s.inv.status ≠ .unanchored)) (decide (x.kind = .compressor)) (c.trains.get x).massRate
      elapsed c.lastMass (some b) value
    (s.applyMass x (delta b value)).inv = { s.inv with mass := a.value } ∧
      Marked s (s.applyMass x (delta b value)) a.saturated a.discarded := by
  dsimp only
  rw [saturate_eq _ _ _ _ _ _ _ _ plausible, delta_eq]
  unfold State.applyMass
  rw [cfg_of_settings loaded, anchored_eq_decide]
  by_cases anchored : s.inv.status ≠ .unanchored
  · rw [decide_eq_true anchored]
    exact ⟨inv_clampIf s _ _, marked_clampIf s _ _⟩
  · rw [decide_eq_false anchored]
    exact ⟨rfl, .unmarked rfl rfl⟩

theorem workMass_account (loaded : s.settings = some c) (elapsed : Nat) (report : MeterReport) {x : Train}
    (installed : (c.trains.get x).installed = true) :
    (State.workMass elapsed report s x).inv =
        { s.inv with
          mass := (massStep s c elapsed report x (Account.of s.inv.mass)).value
          massBase := s.inv.massBase.set x (some (report.trains.get x).mass) } ∧
      Marked s (State.workMass elapsed report s x) (massStep s c elapsed report x (Account.of s.inv.mass)).saturated
        (massStep s c elapsed report x (Account.of s.inv.mass)).discarded := by
  have checked : s.checksTrain x = true := by unfold State.checksTrain; rw [loaded]; exact installed
  have rate : (s.trainCfg x).massRate = (c.trains.get x).massRate := by unfold State.trainCfg; rw [cfg_of_settings loaded]
  unfold State.workMass massStep
  rw [if_pos checked]
  cases base : s.inv.massBase.get x with
  | none => exact ⟨rfl, marked_withInv s _⟩
  | some b =>
    dsimp only
    rw [rate]
    have based := marked_withInv s { s.inv with massBase := s.inv.massBase.set x (some (report.trains.get x).mass) }
    by_cases plausible : forwardCount b.toNat (report.trains.get x).mass.toNat ≤ (c.trains.get x).massRate * (elapsed + 2)
    · rw [if_pos ((plausible_iff loaded _ _ _).mpr (by rw [delta_eq]; exact plausible))]
      obtain ⟨inv, marks⟩ := applyMass_account
        (s := s.withInv { s.inv with massBase := s.inv.massBase.set x (some (report.trains.get x).mass) }) loaded plausible
      exact ⟨inv, based.trans marks⟩
    · rw [if_neg fun holds => plausible (by rw [← delta_eq]; exact (plausible_iff loaded _ _ _).mp holds),
        after_of_implausible _ _ _ _ _ _ _ _ plausible]
      exact ⟨frame_inv (clampEvent_frame _ _), based.trans (marked_setDiscontinuity _)⟩

theorem workMass_of_absent (loaded : s.settings = some c) (elapsed : Nat) (report : MeterReport) {x : Train}
    (absent : ¬ (c.trains.get x).installed = true) : State.workMass elapsed report s x = s := by
  have unchecked : ¬ s.checksTrain x = true := by unfold State.checksTrain; rw [loaded]; exact absent
  unfold State.workMass; exact if_neg unchecked

theorem applyHeat_account (loaded : s.settings = some c) {k : Tier} (increase : Bool) {elapsed : Nat} {b value : Word}
    (plausible : forwardCount b.toNat value.toNat ≤ (c.tiers.get k).heatRate * (elapsed + 2)) :
    let a := (Account.of (s.inv.heat.get k)).after (decide (s.inv.status ≠ .unanchored)) increase (c.tiers.get k).heatRate elapsed
      (c.tiers.get k).capacity (some b) value
    (s.applyHeat k increase (delta b value)).inv = { s.inv with heat := s.inv.heat.set k a.value } ∧
      Marked s (s.applyHeat k increase (delta b value)) a.saturated a.discarded := by
  dsimp only
  rw [saturate_eq _ _ _ _ _ _ _ _ plausible, delta_eq]
  unfold State.applyHeat
  rw [cfg_of_settings loaded, anchored_eq_decide]
  by_cases anchored : s.inv.status ≠ .unanchored
  · rw [decide_eq_true anchored]
    exact ⟨inv_clampIf s _ _, marked_clampIf s _ _⟩
  · rw [decide_eq_false anchored]
    exact ⟨congrArg (fun h => { s.inv with heat := h }) (perTier_set_get s.inv.heat k).symm, .unmarked rfl rfl⟩

theorem workHeat_account (loaded : s.settings = some c) (elapsed : Nat) (k : Tier) (increase : Bool) (base : Option Word) (value : Word) :
    let a := (Account.of (s.inv.heat.get k)).after (decide (s.inv.status ≠ .unanchored)) increase (c.tiers.get k).heatRate elapsed
      (c.tiers.get k).capacity base value
    (s.workHeat elapsed k increase base value).inv = { s.inv with heat := s.inv.heat.set k a.value } ∧
      Marked s (s.workHeat elapsed k increase base value) a.saturated a.discarded := by
  dsimp only
  unfold State.workHeat
  rw [cfg_of_settings loaded]
  have same : { s.inv with heat := s.inv.heat.set k (s.inv.heat.get k) } = s.inv :=
    congrArg (fun h => { s.inv with heat := h }) (perTier_set_get s.inv.heat k)
  cases base with
  | none => exact ⟨same.symm, .unmarked rfl rfl⟩
  | some b =>
    dsimp only
    by_cases plausible : forwardCount b.toNat value.toNat ≤ (c.tiers.get k).heatRate * (elapsed + 2)
    · rw [if_pos ((plausible_iff loaded _ _ _).mpr (by rw [delta_eq]; exact plausible))]
      exact applyHeat_account loaded increase plausible
    · rw [if_neg fun holds => plausible (by rw [← delta_eq]; exact (plausible_iff loaded _ _ _).mp holds),
        after_of_implausible _ _ _ _ _ _ _ _ plausible]
      exact ⟨(frame_inv (clampEvent_frame s _)).trans same.symm, marked_setDiscontinuity s⟩

/-! ### All totalisers -/

/-- The account after the mass totalisers of the trains of a list. -/
def massAccountOf (s : State) (c : Settings) (report : MeterReport) (done : List Train) : Account :=
  done.foldl (fun a x => if (c.trains.get x).installed then massStep s c s.elapsed report x a else a) (Account.of s.inv.mass)

theorem massAccount_eq (s : State) (c : Settings) (report : MeterReport) : s.massAccount c report = massAccountOf s c report Train.all := rfl

/-- The mass totalisers of a list of trains have been worked. -/
structure MassesWorked (s t : State) (c : Settings) (report : MeterReport) (done : List Train) : Prop where
  inv : t.inv = { s.inv with mass := (massAccountOf s c report done).value, massBase := t.inv.massBase }
  rest : ∀ x ∉ done, t.inv.massBase.get x = s.inv.massBase.get x
  marks : Marked s t (massAccountOf s c report done).saturated (massAccountOf s c report done).discarded
  frame : s.onlyChanges t totaliserParts

theorem massesWorked_step {report : MeterReport} (loaded : s.settings = some c) {done : List Train} {x : Train} (fresh : x ∉ done)
    (h : MassesWorked s t c report done) : MassesWorked s (State.workMass s.elapsed report t x) c report (done ++ [x]) := by
  have loadedNow : t.settings = some c := (frame_settings h.frame).trans loaded
  have frame := onlyChanges_trans h.frame (workMass_frame s.elapsed report t x)
  have next : massAccountOf s c report (done ++ [x]) =
      if (c.trains.get x).installed then massStep s c s.elapsed report x (massAccountOf s c report done)
      else massAccountOf s c report done := by
    unfold massAccountOf; rw [List.foldl_append]; rfl
  have outside {y : Train} (new : y ∉ done ++ [x]) : y ∉ done ∧ y ≠ x := by
    rw [List.mem_append, List.mem_singleton, not_or] at new; exact new
  by_cases installed : (c.trains.get x).installed = true
  · obtain ⟨inv, marks⟩ := workMass_account loadedNow s.elapsed report installed
    have same : massStep t c s.elapsed report x (Account.of t.inv.mass) =
        massStep s c s.elapsed report x (Account.of (massAccountOf s c report done).value) := by
      unfold massStep
      rw [h.rest x fresh, h.inv]
    rw [same] at inv marks
    rw [if_pos installed] at next
    have adds := Account.after_eq (decide (s.inv.status ≠ .unanchored)) (decide (x.kind = .compressor)) (c.trains.get x).massRate s.elapsed
      c.lastMass (s.inv.massBase.get x) (report.trains.get x).mass (massAccountOf s c report done)
    have value : (massAccountOf s c report (done ++ [x])).value =
        (massStep s c s.elapsed report x (Account.of (massAccountOf s c report done).value)).value := by rw [next]; unfold massStep; rw [adds]
    refine { inv := ?_, rest := fun y new => ?_, marks := ?_, frame := frame }
    · rw [inv, value, h.inv]
    · rw [inv]
      exact (PerTrain.get_set_ne _ _ (outside new).2).trans (h.rest y (outside new).1)
    · have both := h.marks.trans marks
      rw [next]
      unfold massStep at both ⊢
      rw [adds]
      exact both
  · rw [if_neg installed] at next
    rw [workMass_of_absent loadedNow s.elapsed report installed] at *
    exact { inv := by rw [next]; exact h.inv, rest := fun y new => h.rest y (outside new).1, marks := by rw [next]; exact h.marks, frame := h.frame }

theorem workMasses_worked (loaded : s.settings = some c) (report : MeterReport) :
    MassesWorked s (Train.all.foldl (State.workMass s.elapsed report) s) c report Train.all :=
  foldl_trains (I := fun done v => MassesWorked s v c report done) (f := State.workMass s.elapsed report)
    { inv := rfl, rest := fun _ _ => rfl, marks := .unmarked rfl rfl, frame := onlyChanges_refl s _ }
    fun _ _ _ fresh _ h => massesWorked_step loaded fresh h

theorem workTier_account (loaded : s.settings = some c) (elapsed : Nat) (report : MeterReport) (k : Tier) :
    let a := ((Account.of (s.inv.heat.get k)).after (decide (s.inv.status ≠ .unanchored)) true (c.tiers.get k).heatRate elapsed
      (c.tiers.get k).capacity (s.inv.heatInBase.get k) (report.tiers.get k).heatIn).after (decide (s.inv.status ≠ .unanchored)) false
      (c.tiers.get k).heatRate elapsed (c.tiers.get k).capacity (s.inv.heatOutBase.get k) (report.tiers.get k).heatOut
    (State.workTier elapsed report s k).inv =
        { s.inv with
          heat := s.inv.heat.set k a.value
          heatInBase := s.inv.heatInBase.set k (some (report.tiers.get k).heatIn)
          heatOutBase := s.inv.heatOutBase.set k (some (report.tiers.get k).heatOut) } ∧
      Marked s (State.workTier elapsed report s k) a.saturated a.discarded := by
  dsimp only
  unfold State.workTier
  dsimp only
  obtain ⟨inv, marks⟩ := workHeat_account
    (s := s.withInv { s.inv with heatInBase := s.inv.heatInBase.set k (some (report.tiers.get k).heatIn) }) loaded elapsed k true
    (s.inv.heatInBase.get k) (report.tiers.get k).heatIn
  have loadedNow := (frame_settings (workHeat_frame elapsed k true (s.inv.heatInBase.get k) (report.tiers.get k).heatIn
    (s.withInv { s.inv with heatInBase := s.inv.heatInBase.set k (some (report.tiers.get k).heatIn) }))).trans loaded
  rw [Account.after_eq _ false]
  dsimp only at inv marks ⊢
  rw [State.withInv_inv] at inv marks
  dsimp only at inv marks
  generalize State.workHeat elapsed k true _ _ _ = v at inv marks loadedNow ⊢
  generalize Account.after _ true _ _ _ _ _ _ = a at inv marks ⊢
  obtain ⟨invOut, marksOut⟩ := workHeat_account
    (s := v.withInv { v.inv with heatOutBase := v.inv.heatOutBase.set k (some (report.tiers.get k).heatOut) }) loadedNow elapsed k false
    (v.inv.heatOutBase.get k) (report.tiers.get k).heatOut
  rw [State.withInv_inv, inv] at invOut marksOut
  dsimp only at invOut marksOut
  rw [PerTier.get_set_self] at invOut marksOut
  rw [inv]
  dsimp only
  refine ⟨invOut.trans ?_, ?_⟩
  · have twice (h : PerTier Nat) (a b : Nat) : (h.set k a).set k b = h.set k b := by cases k <;> rfl
    rw [twice]
  · have all := ((marked_withInv s _).trans marks).trans ((marked_withInv v _).trans marksOut)
    rw [Bool.false_or, Bool.false_or, Bool.false_or, Bool.false_or] at all
    exact all

theorem workTotalisers_eq (s : State) (report : MeterReport) :
    s.workTotalisers report = State.workTier s.elapsed report (State.workTier s.elapsed report (State.workTier s.elapsed report
      (Train.all.foldl (State.workMass s.elapsed report) s) .t1) .t2) .t3 := by
  simp only [State.workTotalisers, Tier.all, List.foldl_cons, List.foldl_nil]

/-- Everything the totalisers of a METER do while settings are loaded (R4 to R8). -/
structure TotalisersWorked (s t : State) (c : Settings) (report : MeterReport) : Prop where
  mass : t.inv.mass = (s.massAccount c report).value
  heat : ∀ k, t.inv.heat.get k = (s.heatAccount c report k).value
  marks : Marked s t
    ([s.massAccount c report, s.heatAccount c report .t1, s.heatAccount c report .t2, s.heatAccount c report .t3].any Account.saturated)
    ([s.massAccount c report, s.heatAccount c report .t1, s.heatAccount c report .t2, s.heatAccount c report .t3].any Account.discarded)

/-- The account of a tier is the same in every state that has its inventory's figures for it. -/
theorem workTier_heatAccount (loaded : t.settings = some c) (report : MeterReport) (k : Tier) (status : t.inv.status = s.inv.status)
    (heat : t.inv.heat.get k = s.inv.heat.get k) (heatIn : t.inv.heatInBase.get k = s.inv.heatInBase.get k)
    (heatOut : t.inv.heatOutBase.get k = s.inv.heatOutBase.get k) :
    (State.workTier s.elapsed report t k).inv =
        { t.inv with
          heat := t.inv.heat.set k (s.heatAccount c report k).value
          heatInBase := t.inv.heatInBase.set k (some (report.tiers.get k).heatIn)
          heatOutBase := t.inv.heatOutBase.set k (some (report.tiers.get k).heatOut) } ∧
      Marked t (State.workTier s.elapsed report t k) (s.heatAccount c report k).saturated (s.heatAccount c report k).discarded := by
  have account := workTier_account loaded s.elapsed report k
  dsimp only at account
  rw [status, heat, heatIn, heatOut] at account
  dsimp only
  rw [status]
  exact account

theorem workTotalisers_worked (loaded : s.settings = some c) (report : MeterReport) :
    TotalisersWorked s (s.workTotalisers report) c report := by
  have masses := workMasses_worked loaded report
  rw [workTotalisers_eq]
  generalize Train.all.foldl (State.workMass s.elapsed report) s = v at masses ⊢
  have after := masses.inv
  have loaded0 : v.settings = some c := (frame_settings masses.frame).trans loaded
  obtain ⟨inv1, marks1⟩ := workTier_heatAccount (s := s) loaded0 report .t1 (by rw [after]) (by rw [after]) (by rw [after]) (by rw [after])
  have loaded1 := (frame_settings (workTier_frame s.elapsed report v .t1)).trans loaded0
  generalize State.workTier s.elapsed report v .t1 = v1 at inv1 marks1 loaded1 ⊢
  obtain ⟨inv2, marks2⟩ := workTier_heatAccount (s := s) loaded1 report .t2 (by rw [inv1, after]) (by rw [inv1, after]; rfl)
    (by rw [inv1, after]; rfl) (by rw [inv1, after]; rfl)
  have loaded2 := (frame_settings (workTier_frame s.elapsed report v1 .t2)).trans loaded1
  generalize State.workTier s.elapsed report v1 .t2 = v2 at inv2 marks2 loaded2 ⊢
  obtain ⟨inv3, marks3⟩ := workTier_heatAccount (s := s) loaded2 report .t3 (by rw [inv2, inv1, after]) (by rw [inv2, inv1, after]; rfl)
    (by rw [inv2, inv1, after]; rfl) (by rw [inv2, inv1, after]; rfl)
  generalize State.workTier s.elapsed report v2 .t3 = v3 at inv3 marks3 ⊢
  refine { mass := ?_, heat := fun k => ?_, marks := ?_ }
  · rw [inv3, inv2, inv1, after]; rfl
  · rw [inv3, inv2, inv1]; cases k <;> rfl
  · have all := ((masses.marks.trans marks1).trans marks2).trans marks3
    rw [← massAccount_eq] at all
    simp only [List.any_cons, List.any_nil, Bool.or_false]
    rw [← Bool.or_assoc, ← Bool.or_assoc, ← Bool.or_assoc, ← Bool.or_assoc]
    exact all

/-! ### The baselines (R5) -/

theorem checksTrain_iff (s : State) (x : Train) : s.checksTrain x = true ↔ s.settings = none ∨ (s.trainCfg x).installed = true := by
  unfold State.checksTrain State.trainCfg
  cases loaded : s.settings with
  | none => simp
  | some c => rw [cfg_of_settings loaded]; simp

/-- What the totalisers of a METER never change, and what those of mass do not. -/
structure SameBases (v w : Inventory) : Prop where
  masses : w.massBase = v.massBase
  heatIn : w.heatInBase = v.heatInBase
  heatOut : w.heatOutBase = v.heatOutBase

theorem applyMass_bases (s : State) (x : Train) (d : Nat) : SameBases s.inv (s.applyMass x d).inv := by
  unfold State.applyMass
  dsimp only
  split
  · rw [inv_clampIf]; exact ⟨rfl, rfl, rfl⟩
  · exact ⟨rfl, rfl, rfl⟩

theorem workMass_bases (elapsed : Nat) (report : MeterReport) (s : State) (x : Train) :
    SameBases { s.inv with massBase := if s.checksTrain x then s.inv.massBase.set x (some (report.trains.get x).mass) else s.inv.massBase }
      (State.workMass elapsed report s x).inv := by
  unfold State.workMass
  dsimp only
  split
  · split
    · exact ⟨rfl, rfl, rfl⟩
    · split
      · exact applyMass_bases (s.withInv { s.inv with massBase := s.inv.massBase.set x (some (report.trains.get x).mass) }) x _
      · rw [frame_inv (clampEvent_frame _ _)]; exact ⟨rfl, rfl, rfl⟩
  · exact ⟨rfl, rfl, rfl⟩

theorem workHeat_bases (elapsed : Nat) (k : Tier) (increase : Bool) (base : Option Word) (value : Word) (s : State) :
    SameBases s.inv (s.workHeat elapsed k increase base value).inv := by
  unfold State.workHeat State.applyHeat
  dsimp only
  split
  · exact ⟨rfl, rfl, rfl⟩
  · split
    · split
      · rw [inv_clampIf]; exact ⟨rfl, rfl, rfl⟩
      · exact ⟨rfl, rfl, rfl⟩
    · rw [frame_inv (clampEvent_frame _ _)]; exact ⟨rfl, rfl, rfl⟩

theorem workTier_bases (elapsed : Nat) (report : MeterReport) (s : State) (k : Tier) :
    SameBases
      { s.inv with
        heatInBase := s.inv.heatInBase.set k (some (report.tiers.get k).heatIn)
        heatOutBase := s.inv.heatOutBase.set k (some (report.tiers.get k).heatOut) }
      (State.workTier elapsed report s k).inv := by
  unfold State.workTier
  dsimp only
  have first := workHeat_bases elapsed k true (s.inv.heatInBase.get k) (report.tiers.get k).heatIn
    (s.withInv { s.inv with heatInBase := s.inv.heatInBase.set k (some (report.tiers.get k).heatIn) })
  generalize State.workHeat elapsed k true _ _ _ = v at first
  have second := workHeat_bases elapsed k false (v.inv.heatOutBase.get k) (report.tiers.get k).heatOut
    (v.withInv { v.inv with heatOutBase := v.inv.heatOutBase.set k (some (report.tiers.get k).heatOut) })
  refine ⟨second.masses.trans first.masses, second.heatIn.trans first.heatIn, second.heatOut.trans ?_⟩
  exact congrArg (fun b => b.set k (some (report.tiers.get k).heatOut)) first.heatOut

/-- The baselines once the mass totalisers of a list of trains have been worked. -/
structure MassBasesTaken (s t : State) (report : MeterReport) (done : List Train) : Prop where
  masses : ∀ x, t.inv.massBase.get x =
    if x ∈ done ∧ s.checksTrain x = true then some (report.trains.get x).mass else s.inv.massBase.get x
  settings : t.settings = s.settings

theorem workMasses_bases (s : State) (elapsed : Nat) (report : MeterReport) :
    MassBasesTaken s (Train.all.foldl (State.workMass elapsed report) s) report Train.all := by
  refine foldl_trains (I := fun done v => MassBasesTaken s v report done) (f := State.workMass elapsed report)
    ⟨fun _ => (if_neg fun h => absurd h.1 List.not_mem_nil).symm, rfl⟩ fun done x v fresh _ h => ?_
  have bases := workMass_bases elapsed report v x
  have settings := (frame_settings (workMass_frame elapsed report v x)).trans h.settings
  refine ⟨fun y => ?_, settings⟩
  have checks : v.checksTrain x = s.checksTrain x := by unfold State.checksTrain; rw [h.settings]
  rw [bases.masses, checks]
  dsimp only
  by_cases same : y = x
  · subst same
    by_cases checked : s.checksTrain y = true
    · rw [if_pos checked, PerTrain.get_set_self, if_pos ⟨List.mem_append_right _ (List.mem_singleton_self y), checked⟩]
    · rw [if_neg checked, h.masses, if_neg fun no => checked no.2, if_neg fun no => checked no.2]
  · have kept : (if s.checksTrain x then v.inv.massBase.set x (some (report.trains.get x).mass) else v.inv.massBase).get y =
        v.inv.massBase.get y := by
      split
      · exact PerTrain.get_set_ne _ _ same
      · rfl
    rw [kept, h.masses]
    exact if_congr (and_congr_left fun _ => by rw [List.mem_append, List.mem_singleton]; simp [same]) rfl rfl

/-- The baselines after a METER's totalisers: each one worked takes its new value (R5, R7). -/
theorem workTotalisers_bases (s : State) (report : MeterReport) :
    (∀ x, (s.workTotalisers report).inv.massBase.get x =
      if s.settings = none ∨ (s.trainCfg x).installed = true then some (report.trains.get x).mass else s.inv.massBase.get x) ∧
    ∀ k, (s.workTotalisers report).inv.heatInBase.get k = some (report.tiers.get k).heatIn ∧
      (s.workTotalisers report).inv.heatOutBase.get k = some (report.tiers.get k).heatOut := by
  have masses := (workMasses_bases s s.elapsed report).masses
  rw [workTotalisers_eq]
  generalize Train.all.foldl (State.workMass s.elapsed report) s = v at masses ⊢
  have one := workTier_bases s.elapsed report v .t1
  generalize State.workTier s.elapsed report v .t1 = v1 at one ⊢
  have two := workTier_bases s.elapsed report v1 .t2
  generalize State.workTier s.elapsed report v1 .t2 = v2 at two ⊢
  have three := workTier_bases s.elapsed report v2 .t3
  generalize State.workTier s.elapsed report v2 .t3 = v3 at three ⊢
  refine ⟨fun x => ?_, fun k => ?_⟩
  · rw [three.masses, two.masses, one.masses, masses]
    exact if_congr (by rw [and_iff_right (Train.mem_all x)]; exact checksTrain_iff s x) rfl rfl
  · rw [three.heatIn, three.heatOut]
    dsimp only
    rw [two.heatIn, two.heatOut]
    dsimp only
    rw [one.heatIn, one.heatOut]
    cases k <;> exact ⟨rfl, rfl⟩

/-! ### No settings, or no anchored inventory (R6, R7) -/

theorem workTotalisers_sameMetering (s : State) (report : MeterReport) : SameMetering s.inv (s.workTotalisers report).inv :=
  KeptByTotalisers.workTotalisers (I := fun v => SameMetering s.inv v.inv)
    { inv := fun same h =>
        ⟨same.status.trans h.status, same.metering.trans h.metering, same.drift.trans h.drift, same.epoch.trans h.epoch,
          same.lastMeter.trans h.lastMeter⟩
      clamp := fun f h => by rw [frame_inv (clampEvent_frame _ f)]; exact h }
    report ⟨rfl, rfl, rfl, rfl, rfl⟩

/-- An UNANCHORED inventory without settings is left alone by every totaliser but for its baselines. -/
structure Unmoved (s t : State) : Prop where
  settings : t.settings = none
  status : t.inv.status = .unanchored
  mass : t.inv.mass = s.inv.mass
  heat : t.inv.heat = s.inv.heat
  slog : t.slog = s.slog
  ports : t.ports = s.ports

theorem unmoved_withInv {v : Inventory} (h : Unmoved s t) (status : v.status = t.inv.status) (mass : v.mass = t.inv.mass)
    (heat : v.heat = t.inv.heat) : Unmoved s (t.withInv v) :=
  ⟨h.settings, status.trans h.status, mass.trans h.mass, heat.trans h.heat, h.slog, h.ports⟩

theorem plausible_of_unloaded (unloaded : s.settings = none) (rate elapsed d : Nat) : s.plausible rate elapsed d = true := by
  unfold State.plausible; rw [unloaded]; rfl

theorem workMass_unmoved (elapsed : Nat) (report : MeterReport) (t : State) (x : Train) (h : Unmoved s t) :
    Unmoved s (State.workMass elapsed report t x) := by
  unfold State.workMass
  dsimp only
  split
  · have based := unmoved_withInv (v := { t.inv with massBase := t.inv.massBase.set x (some (report.trains.get x).mass) }) h rfl rfl rfl
    split
    · exact based
    · rw [if_pos (plausible_of_unloaded h.settings _ _ _)]
      unfold State.applyMass
      rw [if_neg (by rw [based.status]; decide)]
      exact based
  · exact h

theorem workHeat_unmoved (elapsed : Nat) (k : Tier) (increase : Bool) (base : Option Word) (value : Word) (h : Unmoved s t) :
    Unmoved s (t.workHeat elapsed k increase base value) := by
  unfold State.workHeat
  split
  · exact h
  · rw [if_pos (plausible_of_unloaded h.settings _ _ _)]
    unfold State.applyHeat
    rw [if_neg (by rw [h.status]; decide)]
    exact h

theorem workTier_unmoved (elapsed : Nat) (report : MeterReport) (t : State) (k : Tier) (h : Unmoved s t) :
    Unmoved s (State.workTier elapsed report t k) := by
  unfold State.workTier
  dsimp only
  have first := workHeat_unmoved elapsed k true (t.inv.heatInBase.get k) (report.tiers.get k).heatIn
    (unmoved_withInv (v := { t.inv with heatInBase := t.inv.heatInBase.set k (some (report.tiers.get k).heatIn) }) h rfl rfl rfl)
  exact workHeat_unmoved elapsed k false _ _ (unmoved_withInv first rfl rfl rfl)

theorem workTotalisers_unmoved (unloaded : s.settings = none) (unanchored : s.inv.status = .unanchored) (report : MeterReport) :
    Unmoved s (s.workTotalisers report) :=
  foldl_keeps (workTier_unmoved s.elapsed report) _
    (foldl_keeps (workMass_unmoved s.elapsed report) _ ⟨unloaded, unanchored, rfl, rfl, rfl, rfl⟩)

/-- An UNANCHORED inventory's account is not moved (R7). -/
theorem after_unanchored (increase : Bool) (rate elapsed top : Nat) (base : Option Word) (value : Word) (a : Account) :
    (a.after false increase rate elapsed top base value).value = a.value ∧
      (a.after false increase rate elapsed top base value).saturated = a.saturated := by
  unfold Account.after
  cases base with
  | none => exact ⟨rfl, rfl⟩
  | some b =>
    by_cases far : rate * (elapsed + 2) < forwardCount b.toNat value.toNat
    · dsimp only
      rw [if_pos far]
      exact ⟨rfl, rfl⟩
    · dsimp only
      rw [if_neg far]
      exact ⟨rfl, rfl⟩

theorem massAccount_unanchored (unanchored : s.inv.status = .unanchored) (c : Settings) (report : MeterReport) :
    (s.massAccount c report).value = s.inv.mass ∧ (s.massAccount c report).saturated = false := by
  have go : ∀ (l : List Train) (a : Account),
      (l.foldl (fun a x => if (c.trains.get x).installed then massStep s c s.elapsed report x a else a) a).value = a.value ∧
      (l.foldl (fun a x => if (c.trains.get x).installed then massStep s c s.elapsed report x a else a) a).saturated = a.saturated := by
    intro l
    induction l with
    | nil => exact fun a => ⟨rfl, rfl⟩
    | cons x rest ih =>
      intro a
      have step : (if (c.trains.get x).installed then massStep s c s.elapsed report x a else a).value = a.value ∧
          (if (c.trains.get x).installed then massStep s c s.elapsed report x a else a).saturated = a.saturated := by
        split
        · unfold massStep
          rw [unanchored]
          exact after_unanchored _ _ _ _ _ _ a
        · exact ⟨rfl, rfl⟩
      exact ⟨(ih _).1.trans step.1, (ih _).2.trans step.2⟩
  rw [massAccount_eq]
  exact go Train.all _

theorem heatAccount_unanchored (unanchored : s.inv.status = .unanchored) (c : Settings) (report : MeterReport) (k : Tier) :
    (s.heatAccount c report k).value = s.inv.heat.get k ∧ (s.heatAccount c report k).saturated = false := by
  unfold State.heatAccount
  rw [unanchored]
  obtain ⟨value, saturated⟩ := after_unanchored false (c.tiers.get k).heatRate (s.now - s.inv.lastMeter) (c.tiers.get k).capacity
    (s.inv.heatOutBase.get k) (report.tiers.get k).heatOut
    ((Account.of (s.inv.heat.get k)).after false true (c.tiers.get k).heatRate (s.now - s.inv.lastMeter) (c.tiers.get k).capacity
      (s.inv.heatInBase.get k) (report.tiers.get k).heatIn)
  obtain ⟨value', saturated'⟩ := after_unanchored true (c.tiers.get k).heatRate (s.now - s.inv.lastMeter) (c.tiers.get k).capacity
    (s.inv.heatInBase.get k) (report.tiers.get k).heatIn (Account.of (s.inv.heat.get k))
  exact ⟨value.trans value', saturated.trans saturated'⟩

end Sys2Proof.Proofs
end

section
/-! The reports of a METER act on the trains one after another (R96 to R99, R104, R105, R122, R128). -/

namespace Sys2Proof.Proofs
open Sys2Proof Sys2Proof.Machine

variable {s t u : State}

/-! ### One report -/

/-- What a reported status can do to a train (R98, R99). -/
inductive ReportActs (s : State) (x : Train) (status : Reported) : State → Prop
  | stays : (reportOutcome (s.train x).state status).1 = (s.train x).state → ReportActs s x status s
  | trips (reason : TripReason) : (s.train x).state ≠ .tripped →
      reportOutcome (s.train x).state status = (.tripped, some reason) → ReportActs s x status (s.trip x reason)
  | starts : (s.train x).state = .starting → reportOutcome (s.train x).state status = (.running, none) →
      ReportActs s x status (s.completeStart x)
  | stops : (s.train x).state = .stopping → reportOutcome (s.train x).state status = (.stopped, none) →
      ReportActs s x status (s.completeStop x)
  | locks : (s.train x).state = .tripped → reportOutcome (s.train x).state status = (.locked, none) →
      ReportActs s x status (s.lock x)

theorem applyReport_acts (s : State) (x : Train) (status : Reported) : ReportActs s x status (s.applyReport x status) := by
  have trips (reason : TripReason) (other : (s.train x).state ≠ .tripped)
      (outcome : reportOutcome (s.train x).state status = (.tripped, some reason))
      (act : s.applyReport x status = s.trip x reason) : ReportActs s x status (s.applyReport x status) := by
    rw [act]; exact .trips reason other outcome
  have stays (outcome : (reportOutcome (s.train x).state status).1 = (s.train x).state) (act : s.applyReport x status = s) :
      ReportActs s x status (s.applyReport x status) := by
    rw [act]; exact .stays outcome
  cases state : (s.train x).state with
  | absent => exact stays (by rw [state]; rfl) (by unfold State.applyReport; rw [state])
  | offline => exact stays (by rw [state]; cases status <;> rfl) (by unfold State.applyReport; rw [state])
  | locked => exact stays (by rw [state]; cases status <;> rfl) (by unfold State.applyReport; rw [state])
  | stopped =>
    cases status with
    | stopped => exact stays (by rw [state]; rfl) (by unfold State.applyReport; rw [state])
    | tripped => exact trips .plant (by rw [state]; decide) (by rw [state]; rfl) (by unfold State.applyReport; rw [state])
    | _ => exact trips .uncommanded (by rw [state]; decide) (by rw [state]; rfl) (by unfold State.applyReport; rw [state])
  | starting =>
    cases status with
    | running =>
      have act : s.applyReport x .running = s.completeStart x := by unfold State.applyReport; rw [state]
      rw [act]; exact .starts state (by rw [state]; rfl)
    | stopping => exact trips .uncommanded (by rw [state]; decide) (by rw [state]; rfl) (by unfold State.applyReport; rw [state])
    | tripped => exact trips .plant (by rw [state]; decide) (by rw [state]; rfl) (by unfold State.applyReport; rw [state])
    | _ => exact stays (by rw [state]; rfl) (by unfold State.applyReport; rw [state])
  | running =>
    cases status with
    | running => exact stays (by rw [state]; rfl) (by unfold State.applyReport; rw [state])
    | tripped => exact trips .plant (by rw [state]; decide) (by rw [state]; rfl) (by unfold State.applyReport; rw [state])
    | _ => exact trips .unexpectedStop (by rw [state]; decide) (by rw [state]; rfl) (by unfold State.applyReport; rw [state])
  | stopping =>
    cases status with
    | stopped =>
      have act : s.applyReport x .stopped = s.completeStop x := by unfold State.applyReport; rw [state]
      rw [act]; exact .stops state (by rw [state]; rfl)
    | starting => exact trips .uncommanded (by rw [state]; decide) (by rw [state]; rfl) (by unfold State.applyReport; rw [state])
    | tripped => exact trips .plant (by rw [state]; decide) (by rw [state]; rfl) (by unfold State.applyReport; rw [state])
    | _ => exact stays (by rw [state]; rfl) (by unfold State.applyReport; rw [state])
  | tripped =>
    cases status with
    | stopped =>
      have act : s.applyReport x .stopped = s.lock x := by unfold State.applyReport; rw [state]
      rw [act]; exact .locks state (by rw [state]; rfl)
    | _ => exact stays (by rw [state]; rfl) (by unfold State.applyReport; rw [state])

/-- A train's record after a report (R89, R96 to R99, R104, R105). -/
def reportedRecord (now : Nat) (cfg : TrainSettings) (status : Reported) (output : Nat) (r : TrainRecord) : TrainRecord :=
  let shown := { r with reported := some status, output := output, state := (reportOutcome r.state status).1 }
  if shown.state = r.state then shown
  else
    match shown.state with
    | .tripped => { shown.leave with reason := (reportOutcome r.state status).2 }
    | .running => { shown.leave with minRun := .load cfg.minRun now }
    | .stopped => { shown.leave with minDown := .load cfg.minDown now }
    | _ => { shown.leave with cooldown := .load cfg.cooldown now, releaseTaken := false }

/-- A train's setpoint after a report (R128). -/
def reportedSetpoint (cfg : TrainSettings) (status : Reported) (state : TrainState) (kw : Nat) : Nat :=
  if (reportOutcome state status).1 = .tripped ∧ state ≠ .tripped then 0
  else if state = .starting ∧ (reportOutcome state status).1 = .running then cfg.minStable
  else kw

/-- The train is TRIPPED in `t` and was not in `s`. -/
def newlyTripped (s t : State) (x : Train) : Bool := decide ((t.train x).state = .tripped) && decide ((s.train x).state ≠ .tripped)

/-- What one train's report does to the rest of the coordinator (R104, R111, R122). -/
structure ReportStep (s t : State) (x : Train) : Prop where
  others : ∀ y, y ≠ x → t.train y = s.train y ∧ t.du.setpoint.get y = s.du.setpoint.get y
  permitHold : t.trc.permitHold = s.trc.permitHold
  dwell : LeavesActive s t x
  quiet : newlyTripped s t x = false → t.trc.generation = s.trc.generation ∧ t.prj = s.prj ∧ t.ports = s.ports
  trips : newlyTripped s t x = true →
    t.trc.generation = s.trc.generation + 1 ∧ s.raisedOnly t .pp .trip ∧ s.raisedOnly t .tp .capacity ∧ s.reviewRequested t
  frame : s.onlyChanges t trainParts

/-- A train whose activity stays loads no dwell. -/
theorem leavesActive_of_same {x : Train} (others : ∀ y, y ≠ x → (t.train y).state.active = (s.train y).state.active)
    (self : (t.train x).state.active = (s.train x).state.active) (du : t.du.dwell = s.du.dwell ∧ t.du.dwellKind = s.du.dwellKind) :
    LeavesActive s t x where
  others := others
  self active := by rw [← self]; exact active
  loads active left := by rw [self, active] at left; cases left
  keeps _ := du

/-- The record of a train that a report brings from STOPPING to STOPPED (R96). -/
def stoppedRecord (s : State) (x : Train) : TrainRecord :=
  { (s.train x).leave with state := .stopped, minDown := .load (s.trainCfg x).minDown s.now }

theorem completeStop_eq (s : State) (x : Train) : s.completeStop x = (s.setTrain x (stoppedRecord s x)).leftActive x.kind := rfl

theorem completeStop_trc (s : State) (x : Train) : (s.completeStop x).trc = (s.setTrain x (stoppedRecord s x)).trc :=
  frame_trc (leftActive_frame _ x.kind)

theorem completeStop_du (s : State) (x : Train) :
    (s.completeStop x).du =
      if 0 < s.cfg.dwell && !(s.setTrain x (stoppedRecord s x)).anyActive x.kind then
        { s.du with dwell := some (s.now + s.cfg.dwell), dwellKind := some x.kind }
      else s.du := leftActive_du (s.setTrain x (stoppedRecord s x)) x.kind

theorem completeStop_ports (s : State) (x : Train) : (s.completeStop x).ports = s.ports := by
  rw [completeStop_eq]; unfold State.leftActive; split <;> rfl

theorem completeStop_setpoint (s : State) (x : Train) : (s.completeStop x).du.setpoint = s.du.setpoint := by
  rw [completeStop_du]; split <;> rfl

theorem leavesActive_completeStop {x : Train} (stopping : (s.train x).state = .stopping) : LeavesActive s (s.completeStop x) x := by
  have trc := completeStop_trc s x
  have self : ((s.completeStop x).train x).state = .stopped := by rw [train_congr trc, train_setTrain_self]; rfl
  have others (y : Train) (ne : y ≠ x) : (s.completeStop x).train y = s.train y := by rw [train_congr trc, train_setTrain_ne _ _ ne]
  have emptied : (s.setTrain x (stoppedRecord s x)).anyActive x.kind = false ↔ s.lastActive x := by
    rw [Bool.eq_false_iff, Ne, anyActive_iff]
    constructor
    · intro none y kind ne
      rw [Bool.eq_false_iff]
      exact fun active => none ⟨y, kind, by rw [train_setTrain_ne _ _ ne]; exact active⟩
    · rintro last ⟨y, kind, active⟩
      by_cases same : y = x
      · subst same; rw [train_setTrain_self] at active; cases active
      · rw [train_setTrain_ne _ _ same, last y kind same] at active; cases active
  have du := completeStop_du s x
  refine
    { others := fun y ne => by rw [others y ne]
      self := fun active => by rw [self] at active; cases active
      loads := fun _ _ last pos => ?_
      keeps := fun none => ?_ }
  · have loads : (decide (0 < s.cfg.dwell) && !(s.setTrain x (stoppedRecord s x)).anyActive x.kind) = true := by
      rw [decide_eq_true pos, emptied.mpr last]; rfl
    rw [du]
    exact ⟨congrArg DispatchUnit.dwell (if_pos loads), congrArg DispatchUnit.dwellKind (if_pos loads)⟩
  · have keeps : ¬ (decide (0 < s.cfg.dwell) && !(s.setTrain x (stoppedRecord s x)).anyActive x.kind) = true := by
      rw [Bool.and_eq_true, decide_eq_true_eq, Bool.not_eq_true', emptied]
      rintro ⟨pos, last⟩
      rcases none with same | notLast | zero
      · rw [stopping, self] at same; cases same
      · exact notLast last
      · omega
    rw [du]
    exact ⟨congrArg DispatchUnit.dwell (if_neg keeps), congrArg DispatchUnit.dwellKind (if_neg keeps)⟩

theorem newlyTripped_iff {x : Train} : newlyTripped s t x = true ↔ (t.train x).state = .tripped ∧ (s.train x).state ≠ .tripped := by
  unfold newlyTripped; simp

theorem reportStep_refl (s : State) (x : Train) : ReportStep s s x where
  others _ _ := ⟨rfl, rfl⟩
  permitHold := rfl
  dwell := leavesActive_of_same (fun _ _ => rfl) rfl ⟨rfl, rfl⟩
  quiet _ := ⟨rfl, rfl, rfl⟩
  trips is := absurd (newlyTripped_iff.mp is).1 (newlyTripped_iff.mp is).2
  frame := onlyChanges_refl s _

/-- A step that changes nothing but a train's record and its setpoint, and neither trips it nor changes its activity. -/
theorem reportStep_of_records {x : Train} {d : DispatchUnit} {r : TrainRecord} (active : r.state.active = (s.train x).state.active)
    (untripped : r.state = .tripped → (s.train x).state = .tripped) (dwell : d.dwell = s.du.dwell ∧ d.dwellKind = s.du.dwellKind)
    (setpoint : ∀ y, y ≠ x → d.setpoint.get y = s.du.setpoint.get y) : ReportStep s ((s.setTrain x r).withDu d) x where
  others y ne := ⟨train_setTrain_ne s r ne, setpoint y ne⟩
  permitHold := rfl
  dwell := leavesActive_of_same (fun y ne => congrArg (·.state.active) (train_setTrain_ne s r ne))
    ((congrArg (·.state.active) (train_setTrain_self s x r)).trans active) dwell
  quiet _ := ⟨rfl, rfl, rfl⟩
  trips is := by
    obtain ⟨tripped, was⟩ := newlyTripped_iff.mp is
    exact absurd (untripped ((congrArg TrainRecord.state (train_setTrain_self s x r)).symm.trans tripped)) was
  frame := onlyChanges_trans (onlyChanges_mono (setTrain_frame s x r) (by decide)) (onlyChanges_mono (withDu_frame _ d) (by decide))

theorem reportStep_of_acts {x : Train} {status : Reported} (h : ReportActs s x status t) : ReportStep s t x := by
  cases h with
  | stays => exact reportStep_refl s x
  | trips reason other outcome =>
    have trips := trip_trips s x reason
    refine
      { others := fun y ne => ⟨trips.others y ne, by rw [setpoint_trips trips, PerTrain.get_set_ne _ _ ne]⟩
        permitHold := trips.permitHold, dwell := trips_leavesActive trips, quiet := fun no => ?_
        trips := fun _ => ⟨trips.generation, trips.plant, trips.trade, trips.review⟩, frame := trips.frame }
    have is : newlyTripped s (s.trip x reason) x = true := newlyTripped_iff.mpr ⟨by rw [trips.record], other⟩
    rw [no] at is; cases is
  | starts starting => 
    exact reportStep_of_records (by rw [starting]; rfl) nofun ⟨rfl, rfl⟩ fun y ne => PerTrain.get_set_ne _ _ ne
  | stops stopping =>
    have trc := completeStop_trc s x
    refine
      { others := fun y ne => ⟨by rw [train_congr trc, train_setTrain_ne _ _ ne], by rw [completeStop_setpoint]⟩
        permitHold := by rw [trc]; rfl, dwell := leavesActive_completeStop stopping
        quiet := fun _ => ⟨by rw [trc]; rfl, frame_prj (completeStop_frame s x), completeStop_ports s x⟩
        trips := fun is => ?_
        frame := onlyChanges_mono (completeStop_frame s x) (by decide) }
    have tripped := (newlyTripped_iff.mp is).1
    rw [train_congr trc, train_setTrain_self] at tripped
    cases tripped
  | locks tripped =>
    exact reportStep_of_records (d := s.du) (by rw [tripped]; rfl) nofun ⟨rfl, rfl⟩ fun _ _ => rfl

theorem reportedRecord_of_stays {now output : Nat} {cfg : TrainSettings} {status : Reported} {r : TrainRecord}
    (stays : (reportOutcome r.state status).1 = r.state) :
    reportedRecord now cfg status output r = { r with reported := some status, output := output } := by
  unfold reportedRecord
  rw [stays]
  exact if_pos rfl

/-- A report recorded in a train's record, before it acts on the train's state (R97). -/
def noting (r : TrainRecord) (status : Reported) (output : Nat) : TrainRecord := { r with reported := some status, output := output }

/-- The train's own record and setpoint once its report has been noted and has acted. -/
theorem record_of_acts {x : Train} {status : Reported} {output : Nat} {r : TrainRecord} (recorded : s.train x = noting r status output)
    (h : ReportActs s x status t) :
    t.train x = reportedRecord s.now (s.trainCfg x) status output r ∧
      t.du.setpoint.get x = reportedSetpoint (s.trainCfg x) status r.state (s.du.setpoint.get x) := by
  have state : (s.train x).state = r.state := by rw [recorded]; rfl
  cases h with
  | stays outcome =>
    rw [state] at outcome
    refine ⟨by rw [reportedRecord_of_stays outcome, recorded]; rfl, ?_⟩
    unfold reportedSetpoint
    rw [outcome, if_neg fun no => no.2 no.1, if_neg]
    rintro ⟨starting, running⟩
    rw [starting] at running; cases running
  | trips reason other outcome =>
    have trips := trip_trips s x reason
    rw [state] at other outcome
    refine ⟨?_, ?_⟩
    · rw [trips.record, recorded]
      unfold reportedRecord
      rw [outcome]
      exact (if_neg fun same => other same.symm).symm
    · unfold reportedSetpoint
      rw [setpoint_trips trips, PerTrain.get_set_self, outcome, if_pos ⟨rfl, other⟩]
  | starts starting outcome =>
    rw [state] at starting outcome
    refine ⟨?_, ?_⟩
    · have after : (s.completeStart x).train x = { (s.train x).leave with state := .running, minRun := .load (s.trainCfg x).minRun s.now } :=
        train_setTrain_self s x _
      rw [after, recorded]
      unfold reportedRecord
      rw [outcome, starting]
      rfl
    · unfold reportedSetpoint
      rw [outcome, if_neg (by rintro ⟨no, -⟩; cases no), if_pos ⟨starting, rfl⟩]
      exact PerTrain.get_set_self _ _ _
  | stops stopping outcome =>
    rw [state] at stopping outcome
    refine ⟨?_, ?_⟩
    · rw [train_congr (completeStop_trc s x), train_setTrain_self]
      unfold stoppedRecord reportedRecord
      rw [recorded, outcome, stopping]
      rfl
    · unfold reportedSetpoint
      rw [outcome, if_neg (by rintro ⟨no, -⟩; cases no), if_neg (by rintro ⟨-, no⟩; cases no), completeStop_setpoint]
  | locks tripped outcome =>
    rw [state] at tripped outcome
    refine ⟨?_, ?_⟩
    · have after : (s.lock x).train x =
          { (s.train x).leave with state := .locked, cooldown := .load (s.trainCfg x).cooldown s.now, releaseTaken := false } :=
        train_setTrain_self s x _
      rw [after, recorded]
      unfold reportedRecord
      rw [outcome, tripped]
      rfl
    · unfold reportedSetpoint
      rw [outcome, if_neg (by rintro ⟨no, -⟩; cases no), if_neg (by rintro ⟨-, no⟩; cases no)]
      rfl

/-! ### The reports of a METER -/

theorem takeReport_of_ignored (report : MeterReport) {x : Train}
    (ignored : (s.train x).state = .absent ∨ Reported.ofCode (report.trains.get x).status = none) : State.takeReport report s x = s := by
  unfold State.takeReport
  dsimp only
  split
  · rfl
  · rfl
  · next status known present =>
    rcases ignored with absent | unknown
    · exact absurd absent present
    · rw [unknown] at known; cases known

theorem takeReport_of_present (report : MeterReport) {x : Train} {status : Reported} (present : (s.train x).state ≠ .absent)
    (known : Reported.ofCode (report.trains.get x).status = some status) :
    State.takeReport report s x =
      (s.setTrain x (noting (s.train x) status (report.trains.get x).output.toNat)).applyReport x status := by
  unfold State.takeReport
  dsimp only
  rw [known]
  split
  · next absent => exact absurd absent present
  · next impossible _ => cases impossible
  · next same _ => cases same; rfl

/-- Noting a report does not change what the train's state and activity show. -/
theorem reportStep_of_noted {x : Train} {r : TrainRecord} (state : r.state = (s.train x).state) (h : ReportStep (s.setTrain x r) t x) :
    ReportStep s t x := by
  have records (y : Train) : ((s.setTrain x r).train y).state = (s.train y).state := by
    by_cases same : y = x
    · subst same; rw [train_setTrain_self]; exact state
    · rw [train_setTrain_ne _ _ same]
  have last : (s.setTrain x r).lastActive x ↔ s.lastActive x := by unfold State.lastActive; simp only [records]
  have newly : newlyTripped (s.setTrain x r) t x = newlyTripped s t x := by unfold newlyTripped; rw [records]
  have dwell := h.dwell
  refine
    { others := fun y ne => by rw [← train_setTrain_ne s r ne]; exact h.others y ne
      permitHold := h.permitHold
      dwell := ⟨fun y ne => (dwell.others y ne).trans (congrArg _ (records y)), fun active => ?_, ?_, ?_⟩
      quiet := fun no => h.quiet (newly.trans no), trips := fun is => h.trips (newly.trans is)
      frame := onlyChanges_trans (onlyChanges_mono (setTrain_frame s x r) (by decide)) h.frame }
  · rw [← records]; exact dwell.self active
  · rw [← records, ← last]; exact dwell.loads
  · rw [← records, ← last]; exact dwell.keeps

theorem takeReport_step (report : MeterReport) (s : State) (x : Train) : ReportStep s (State.takeReport report s x) x := by
  by_cases ignored : (s.train x).state = .absent ∨ Reported.ofCode (report.trains.get x).status = none
  · rw [takeReport_of_ignored report ignored]; exact reportStep_refl s x
  · rw [not_or] at ignored
    obtain ⟨present, known⟩ := ignored
    obtain ⟨status, known⟩ := Option.ne_none_iff_exists'.mp known
    rw [takeReport_of_present report present known]
    exact reportStep_of_noted (r := noting (s.train x) status (report.trains.get x).output.toNat) rfl
      (reportStep_of_acts (applyReport_acts _ x status))

/-- The record and setpoint that its own report leaves a train. -/
theorem takeReport_record (report : MeterReport) {x : Train} {status : Reported} (present : (s.train x).state ≠ .absent)
    (known : Reported.ofCode (report.trains.get x).status = some status) :
    (State.takeReport report s x).train x =
        reportedRecord s.now (s.trainCfg x) status (report.trains.get x).output.toNat (s.train x) ∧
      (State.takeReport report s x).du.setpoint.get x =
        reportedSetpoint (s.trainCfg x) status (s.train x).state (s.du.setpoint.get x) := by
  rw [takeReport_of_present report present known]
  exact record_of_acts (s := s.setTrain x (noting (s.train x) status (report.trains.get x).output.toNat)) (train_setTrain_self s x _)
    (applyReport_acts _ x status)

/-- The reports of the trains of a list have been taken, from `s` to `t`; `base` and `n` are the engine and the reviews requested before
them. -/
structure ReportsOf (s t : State) (report : MeterReport) (base : Engine) (n : Nat) (done : List Train) : Prop where
  records : ∀ x ∈ done, ∀ status, (s.train x).state ≠ .absent → Reported.ofCode (report.trains.get x).status = some status →
    t.train x = reportedRecord s.now (s.trainCfg x) status (report.trains.get x).output.toNat (s.train x) ∧
      t.du.setpoint.get x = reportedSetpoint (s.trainCfg x) status (s.train x).state (s.du.setpoint.get x)
  others : ∀ x, (x ∉ done ∨ (s.train x).state = .absent) → t.train x = s.train x ∧ t.du.setpoint.get x = s.du.setpoint.get x
  fewer : ∀ x, (t.train x).state.active = true → (s.train x).state.active = true
  generation : t.trc.generation = s.trc.generation + BitVec.ofNat 32 (done.filter (newlyTripped s t)).length
  permitHold : t.trc.permitHold = s.trc.permitHold
  dwell : s.DwellFollows t
  trip : s.flagged t .pp .trip (∃ x ∈ done, newlyTripped s t x = true)
  capacity : s.flagged t .tp .capacity (∃ x ∈ done, newlyTripped s t x = true)
  reviews : t.afterRequests base (n + (done.filter (newlyTripped s t)).length)
  frame : s.onlyChanges t trainParts

theorem reportsOf_step {report : MeterReport} {base : Engine} {n : Nat} {done : List Train} {x : Train} (fresh : x ∉ done)
    (before : x.kind = .compressor → ∀ y ∈ done, y.kind = .compressor) (h : ReportsOf s t report base n done) :
    ReportsOf s (State.takeReport report t x) report base n (done ++ [x]) := by
  obtain ⟨same, setpoint⟩ := h.others x (.inl fresh)
  have step := takeReport_step report t x
  have own {status : Reported} (present : (s.train x).state ≠ .absent)
      (known : Reported.ofCode (report.trains.get x).status = some status) :=
    takeReport_record (s := t) report (x := x) (by rw [same]; exact present) known
  have ignored (absent : (s.train x).state = .absent) : State.takeReport report t x = t :=
    takeReport_of_ignored report (.inl (by rw [same]; exact absent))
  generalize State.takeReport report t x = v at step own ignored
  have ne {y : Train} (old : y ∈ done) : y ≠ x := fun e => fresh (e ▸ old)
  have newlyOld {y : Train} (other : y ≠ x) : newlyTripped s v y = newlyTripped s t y := by
    unfold newlyTripped; rw [(step.others y other).1]
  have newlyNow : newlyTripped s v x = newlyTripped t v x := by unfold newlyTripped; rw [same]
  have old : done.filter (newlyTripped s v) = done.filter (newlyTripped s t) :=
    List.filter_congr fun y hy => newlyOld (ne hy)
  have fewer (y : Train) (active : (v.train y).state.active = true) : (s.train y).state.active = true := by
    by_cases self : y = x
    · subst self; exact h.fewer y (step.dwell.self active)
    · rw [(step.others y self).1] at active; exact h.fewer y active
  have dwell : s.DwellFollows v := by
    refine dwellFollows_step h.dwell step.dwell (cfg_congr (frame_settings h.frame)) (frame_now h.frame) h.fewer
      fun compressor y turbine => ?_
    have new : y ∉ done := fun old => by rw [before compressor y old] at turbine; cases turbine
    rw [(h.others y (.inl new)).1]
  have oldSome : (∃ y ∈ done, newlyTripped s v y = true) ↔ ∃ y ∈ done, newlyTripped s t y = true :=
    exists_congr fun y => and_congr_right fun hy => by rw [newlyOld (ne hy)]
  have someNow : (∃ y ∈ done ++ [x], newlyTripped s v y = true) ↔
      (∃ y ∈ done, newlyTripped s t y = true) ∨ newlyTripped t v x = true := by
    rw [← oldSome, ← newlyNow]
    constructor
    · rintro ⟨y, hy, is⟩
      rcases List.mem_append.mp hy with hy | hy
      · exact .inl ⟨y, hy, is⟩
      · cases List.mem_singleton.mp hy; exact .inr is
    · rintro (⟨y, hy, is⟩ | is)
      · exact ⟨y, List.mem_append_left _ hy, is⟩
      · exact ⟨x, List.mem_append_right _ (List.mem_singleton_self x), is⟩
  have records (y : Train) (hy : y ∈ done ++ [x]) (status : Reported) (present : (s.train y).state ≠ .absent)
      (known : Reported.ofCode (report.trains.get y).status = some status) :
      v.train y = reportedRecord s.now (s.trainCfg y) status (report.trains.get y).output.toNat (s.train y) ∧
        v.du.setpoint.get y = reportedSetpoint (s.trainCfg y) status (s.train y).state (s.du.setpoint.get y) := by
    rcases List.mem_append.mp hy with hy | hy
    · obtain ⟨record, kw⟩ := h.records y hy status present known
      exact ⟨((step.others y (ne hy)).1).trans record, ((step.others y (ne hy)).2).trans kw⟩
    · cases List.mem_singleton.mp hy
      obtain ⟨record, kw⟩ := own present known
      rw [same, setpoint, trainCfg_congr (frame_settings h.frame), frame_now h.frame] at *
      exact ⟨record, kw⟩
  have others (y : Train) (hy : y ∉ done ++ [x] ∨ (s.train y).state = .absent) :
      v.train y = s.train y ∧ v.du.setpoint.get y = s.du.setpoint.get y := by
    by_cases self : y = x
    · subst self
      have absent := hy.resolve_left fun new => new (List.mem_append_right _ (List.mem_singleton_self y))
      rw [ignored absent]
      exact ⟨same, setpoint⟩
    · obtain ⟨record, kw⟩ := h.others y (hy.imp (fun new hy => new (List.mem_append_left _ hy)) id)
      exact ⟨((step.others y self).1).trans record, ((step.others y self).2).trans kw⟩
  have frame := onlyChanges_trans h.frame step.frame
  have permitHold := step.permitHold.trans h.permitHold
  by_cases trips : newlyTripped t v x = true
  · obtain ⟨generation, plant, trade, review⟩ := step.trips trips
    have count : ((done ++ [x]).filter (newlyTripped s v)).length = (done.filter (newlyTripped s t)).length + 1 := by
      rw [List.filter_append, old, List.length_append, List.filter_cons_of_pos (newlyNow.trans trips)]
      rfl
    refine
      { records := records, others := others, fewer := fewer, permitHold := permitHold, dwell := dwell, frame := frame
        generation := ?_
        trip := flagged_congr (flagged_trans h.trip (flagged_of_raisedOnly plant)) (by rw [someNow]; simp [trips])
        capacity := flagged_congr (flagged_trans h.capacity (flagged_of_raisedOnly trade)) (by rw [someNow]; simp [trips])
        reviews := ?_ }
    · rw [generation, h.generation, count, BitVec.ofNat_add, BitVec.add_assoc]; rfl
    · rw [count, ← Nat.add_assoc]
      exact afterRequests_succ h.reviews review (by rw [frame_inv step.frame]) (by rw [frame_tb step.frame])
  · obtain ⟨generation, prj, ports⟩ := step.quiet (Bool.eq_false_iff.mpr trips)
    have count : (done ++ [x]).filter (newlyTripped s v) = done.filter (newlyTripped s t) := by
      rw [List.filter_append, old, List.filter_cons_of_neg (by rw [newlyNow]; exact trips)]
      exact List.append_nil _
    have causes (p : Port) : (v.port p).causes = (t.port p).causes := by unfold State.port; rw [ports]
    exact
      { records := records, others := others, fewer := fewer, permitHold := permitHold, dwell := dwell, frame := frame
        generation := by rw [generation, h.generation, count]
        trip := flagged_congr (flagged_trans h.trip (flagged_of_causes (causes .pp))) (by rw [someNow]; simp [trips])
        capacity := flagged_congr (flagged_trans h.capacity (flagged_of_causes (causes .tp))) (by rw [someNow]; simp [trips])
        reviews := by
          rw [count]
          exact afterRequests_congr h.reviews prj (by rw [frame_inv step.frame]) (by rw [frame_tb step.frame]) }

theorem takeReports_reportsOf (report : MeterReport) {base : Engine} {n : Nat} (start : s.afterRequests base n) :
    ReportsOf s (s.takeReports report) report base n Train.all :=
  foldl_trains (I := fun done v => ReportsOf s v report base n done) (f := State.takeReport report)
    { records := nofun, others := fun _ _ => ⟨rfl, rfl⟩, fewer := fun _ active => active, generation := (BitVec.add_zero _).symm
      permitHold := rfl, dwell := dwellFollows_refl s, trip := flagged_congr (flagged_of_causes rfl) (by simp)
      capacity := flagged_congr (flagged_of_causes rfl) (by simp), reviews := start, frame := onlyChanges_refl s _ }
    fun _ _ _ fresh before h => reportsOf_step fresh before h

/-- The reports of a METER raise no other cause. -/
theorem takeReport_flagged_other (report : MeterReport) (s : State) (x : Train) (p : Port) {c : Cause} (trip : c ≠ .trip)
    (capacity : c ≠ .capacity) : s.flagged (State.takeReport report s x) p c False := by
  by_cases ignored : (s.train x).state = .absent ∨ Reported.ofCode (report.trains.get x).status = none
  · rw [takeReport_of_ignored report ignored]; exact flagged_of_causes rfl
  · rw [not_or] at ignored
    obtain ⟨present, known⟩ := ignored
    obtain ⟨status, known⟩ := Option.ne_none_iff_exists'.mp known
    rw [takeReport_of_present report present known]
    have noted : s.flagged (s.setTrain x (noting (s.train x) status (report.trains.get x).output.toNat)) p c False := flagged_of_causes rfl
    generalize s.setTrain x (noting (s.train x) status (report.trains.get x).output.toNat) = v at noted
    have acts := applyReport_acts v x status
    generalize v.applyReport x status = w at acts
    refine flagged_congr (flagged_trans noted ?_) or_self_iff
    cases acts with
    | stays => exact flagged_of_causes rfl
    | trips reason => exact trip_flagged_other v x reason p trip capacity
    | starts => exact flagged_of_causes rfl
    | stops => exact flagged_of_causes (by unfold State.port; rw [completeStop_ports])
    | locks => exact flagged_of_causes rfl

theorem takeReports_flagged_other (report : MeterReport) (s : State) (p : Port) {c : Cause} (trip : c ≠ .trip) (capacity : c ≠ .capacity) :
    s.flagged (s.takeReports report) p c False :=
  foldl_flagged_false (fun u x => takeReport_flagged_other report u x p trip capacity) _ s

end Sys2Proof.Proofs
end

section
/-! METER (O14 to O16, O20): the totalisers, the drift test, the reports and the recovery put together. -/

namespace Sys2Proof.Proofs
open Sys2Proof Sys2Proof.Machine

variable {s t u : State} {report : MeterReport}

/-! ### The drift test (R9 to R11) -/

/-- The inventory is TRACKING and the drift count reaches its limit (R11). -/
def drifting (s : State) (pressure : Nat) : Prop := s.inv.status = .tracking ∧ s.cfg.driftLimit ≤ s.nextDrift pressure

/-- What the drift test of a METER does (R9 to R11). -/
structure DriftTested (s t : State) (pressure : Nat) : Prop where
  drift : t.inv.drift = if s.inv.status = .unanchored then s.inv.drift else s.nextDrift pressure
  drifted : drifting s pressure → t.inv.status = .drifted
  steady : ¬ drifting s pressure → t.inv.status = s.inv.status ∧ t.prj = s.prj ∧ t.ports = s.ports
  rest : t.inv = { s.inv with drift := t.inv.drift, status := t.inv.status }
  raised : drifting s pressure → s.raisedOnly t .pp .drift ∧ s.raisedOnly t .tp .inventory
  review : drifting s pressure → s.reviewRequested t
  frame : s.onlyChanges t [.inv, .pp, .tp, .prj]

/-- The drift count after the test, before anything follows from it (R10). -/
def counted (s : State) (pressure : Nat) : State := s.withInv { s.inv with drift := s.nextDrift pressure }

theorem driftTest_of_unanchored (unanchored : s.inv.status = .unanchored) (pressure : Nat) : s.driftTest pressure = s := by
  unfold State.driftTest; exact if_neg (by rw [unanchored]; decide)

theorem driftTest_of_anchored (anchored : s.inv.status ≠ .unanchored) (pressure : Nat) :
    s.driftTest pressure =
      if s.inv.status = .tracking ∧ s.cfg.driftLimit ≤ s.nextDrift pressure then (counted s pressure).becomeDrifted
      else counted s pressure := by
  unfold State.driftTest; exact if_pos ((anchored_iff _).mpr anchored)

/-- The inventory before DRIFT and INVENTORY are raised (R11). -/
def drifted (s : State) : State := s.withInv { s.inv with status := .drifted }

theorem becomeDrifted_eq (s : State) : s.becomeDrifted = (((drifted s).raise .pp .drift).raise .tp .inventory).requestReview := rfl

theorem becomeDrifted_rest_frame (s : State) :
    (((drifted s).raise .pp .drift).raise .tp .inventory).onlyChanges s.becomeDrifted [.prj] := requestReview_frame _

theorem becomeDrifted_inv (s : State) : s.becomeDrifted.inv = { s.inv with status := .drifted } :=
  frame_inv (becomeDrifted_rest_frame s)

theorem becomeDrifted_pp (s : State) : s.raisedOnly s.becomeDrifted .pp .drift := by
  unfold State.raisedOnly
  rw [port_of_onlyChanges (becomeDrifted_rest_frame s) .pp (by decide), port_raise_ne _ _ _ _ (by decide), port_raise]
  rfl

theorem becomeDrifted_tp (s : State) : s.raisedOnly s.becomeDrifted .tp .inventory := by
  unfold State.raisedOnly
  rw [port_of_onlyChanges (becomeDrifted_rest_frame s) .tp (by decide), port_raise, port_raise_ne _ _ _ _ (by decide)]
  rfl

theorem becomeDrifted_review (s : State) : s.reviewRequested s.becomeDrifted := by
  rw [becomeDrifted_eq]
  exact reviewRequested_requestReview (u := ((drifted s).raise .pp .drift).raise .tp .inventory) (l := []) rfl (onlyChanges_refl _ [])

theorem driftTest_tested (s : State) (pressure : Nat) : DriftTested s (s.driftTest pressure) pressure := by
  have frame := driftTest_frame s pressure
  by_cases unanchored : s.inv.status = .unanchored
  · have never : ¬ drifting s pressure := fun drifts => by rw [drifts.1] at unanchored; cases unanchored
    rw [driftTest_of_unanchored unanchored] at *
    exact { drift := (if_pos unanchored).symm, drifted := fun no => absurd no never, steady := fun _ => ⟨rfl, rfl, rfl⟩, rest := rfl
            raised := fun no => absurd no never, review := fun no => absurd no never, frame := frame }
  · have anchored := driftTest_of_anchored unanchored pressure
    by_cases drifts : drifting s pressure
    · rw [anchored.trans (if_pos drifts)] at frame ⊢
      have inv := becomeDrifted_inv (counted s pressure)
      exact
        { drift := by rw [inv, if_neg unanchored]; rfl, drifted := fun _ => by rw [inv], steady := fun no => absurd drifts no
          rest := by rw [inv]; rfl, raised := fun _ => ⟨becomeDrifted_pp (counted s pressure), becomeDrifted_tp (counted s pressure)⟩
          review := fun _ => becomeDrifted_review (counted s pressure), frame := frame }
    · rw [anchored.trans (if_neg drifts)] at frame ⊢
      exact { drift := (if_neg unanchored).symm, drifted := fun no => absurd no drifts, steady := fun _ => ⟨rfl, rfl, rfl⟩, rest := rfl
              raised := fun no => absurd no drifts, review := fun no => absurd no drifts, frame := frame }

/-! ### The stages of a METER -/

/-- The state once the totalisers of a METER have been worked (R4 step 2). -/
def meterTotals (s : State) (report : MeterReport) : State := (s.taken .pp).workTotalisers report

/-- The state once the drift test has been made (R4 step 3). -/
def meterTested (s : State) (report : MeterReport) : State := (meterTotals s report).driftTest report.pressure.toNat

/-- The state once the last METER time has been set, before the reports. -/
def meterTimed (s : State) (report : MeterReport) : State :=
  (meterTested s report).withInv { (meterTested s report).inv with lastMeter := (meterTested s report).now }

/-- The state once the reports have been taken (R97). -/
def meterReported (s : State) (report : MeterReport) : State := (meterTimed s report).takeReports report

theorem workMeter_eq (s : State) (report : MeterReport) :
    (s.taken .pp).workMeter report =
      ((meterReported s report).withDu { (meterReported s report).du with metered := (meterReported s report).meteredOutput }).recover := by
  unfold State.workMeter meterReported meterTimed meterTested meterTotals; rfl

theorem exec_meter :
    exec (.meter report) s = .next (s.takeFrame .pp fun s =>
      if s.meterValid report then (s.workMeter report).respond .pp 0x10#8 .ok (s.workMeter report).meterFields
      else s.respond .pp 0x10#8 .badField []) := rfl

theorem exec_meter_of_valid (free : s.free .pp) (valid : s.meterValid report = true) :
    exec (.meter report) s =
      .next (((s.taken .pp).workMeter report).respond .pp 0x10#8 .ok ((s.taken .pp).workMeter report).meterFields) := by
  have valid : (s.taken .pp).meterValid report = true := valid
  rw [exec_taken free exec_meter, if_pos valid]

/-- The recovery of the metering (R19, R109). -/
theorem recover_inv (s : State) : s.recover.inv = { s.inv with metering := .fresh } := by
  unfold State.recover
  cases metering : s.inv.metering with
  | fresh => rw [if_neg nofun]; exact congrArg (fun m => { s.inv with metering := m }) metering
  | stale => rw [if_pos rfl]; rfl

theorem recover_trc (s : State) :
    s.recover.trc = { s.trc with permitHold := if s.inv.metering = .stale then none else s.trc.permitHold } := by
  unfold State.recover
  split <;> rfl

theorem recover_tp (s : State) :
    s.recover.port .tp =
      if s.inv.metering = .stale then { s.port .tp with causes := (s.port .tp).causes ||| Cause.mask .tp .inventory } else s.port .tp := by
  unfold State.recover
  split
  · rw [port_raise]; rfl
  · rfl

/-- What a METER taken leaves, by the state that the reports have left. -/
structure MeterEnds (r t : State) : Prop where
  inv : t.inv = { r.inv with metering := .fresh }
  trc : t.trc = { r.trc with permitHold := if r.inv.metering = .stale then none else r.trc.permitHold }
  du : t.du = { r.du with metered := r.meteredOutput }
  plant : (t.port .pp).causes = (r.port .pp).causes
  trade : t.port .tp =
    if r.inv.metering = .stale then { r.port .tp with causes := (r.port .tp).causes ||| Cause.mask .tp .inventory } else r.port .tp
  frame : r.onlyChanges t [.inv, .trc, .du, .tp, .pp]

theorem meterEnds (s : State) (report : MeterReport) (k : Byte) (l : List Byte) :
    MeterEnds (meterReported s report) (((s.taken .pp).workMeter report).respond .pp k .ok l) := by
  rw [workMeter_eq]
  generalize meterReported s report = r
  have f := recover_frame (r.withDu { r.du with metered := r.meteredOutput })
  refine { inv := recover_inv _, trc := recover_trc _, du := frame_du f, plant := ?_, trade := ?_, frame := ?_ }
  · rw [port_respond, port_of_onlyChanges f .pp (by decide)]
    rfl
  · rw [port_respond_ne _ _ _ _ (by decide)]
    exact recover_tp _
  · exact respond_frame_of (onlyChanges_trans (onlyChanges_mono (withDu_frame r _) (by decide)) (onlyChanges_mono f (by decide)))
      (by decide) _ _ _

theorem flagged_totals (s : State) (report : MeterReport) {c : Cause} (other : c ≠ .clamp) :
    s.flagged (meterTotals s report) .pp c False :=
  KeptByTotalisers.workTotalisers (I := fun v => s.flagged v .pp c False)
    { inv := fun _ h => h
      clamp := fun f h => flagged_congr (flagged_trans (flagged_trans h (flagged_raise_other _ .pp .pp other.symm))
        (flagged_of_frame (markRecord_frame _ f))) (by simp) }
    report (flagged_of_causes (by rw [port_taken]))

theorem totals_frame (s : State) (report : MeterReport) : s.onlyChanges (meterTotals s report) [.inv, .pp, .slog] :=
  onlyChanges_trans (onlyChanges_mono (taken_frame s .pp) (by decide)) (workTotalisers_frame _ report)

theorem timed_frame (s : State) (report : MeterReport) : (meterTotals s report).onlyChanges (meterTimed s report) [.inv, .pp, .tp, .prj] :=
  onlyChanges_trans (driftTest_frame _ _) (onlyChanges_mono (withInv_frame _ _) (by decide))

theorem reported_frame (s : State) (report : MeterReport) : (meterTimed s report).onlyChanges (meterReported s report) trainParts :=
  takeReports_frame _ report

theorem totals_metering (s : State) (report : MeterReport) : SameMetering s.inv (meterTotals s report).inv :=
  workTotalisers_sameMetering (s.taken .pp) report

/-- The inventory that the stages of a METER leave (R4, R7, R10, R11). -/
theorem reported_inv (s : State) (report : MeterReport) :
    (meterReported s report).inv =
      { (meterTotals s report).inv with
        drift := (meterTested s report).inv.drift, status := (meterTested s report).inv.status, lastMeter := s.now } := by
  have tested := driftTest_tested (meterTotals s report) report.pressure.toNat
  have now : (meterTested s report).now = s.now :=
    (frame_now (driftTest_frame (meterTotals s report) report.pressure.toNat)).trans (frame_now (totals_frame s report))
  rw [frame_inv (reported_frame s report)]
  show { (meterTested s report).inv with lastMeter := (meterTested s report).now } = _
  rw [now]
  have rest := tested.rest
  change (meterTested s report).inv = _ at rest
  rw [rest]

/-! ### Cause flags along the stages (R184) -/

theorem flagged_of_raisedOnly_other {p : Port} {c d : Cause} (h : s.raisedOnly t p d) (other : d ≠ c) : s.flagged t p c False := by
  have same : t.port p = (s.raise p d).port p := h.trans (port_raise s p d).symm
  exact flagged_congr (flagged_trans (flagged_raise_other s p p other) (flagged_of_causes (by rw [same]))) or_self_iff

theorem driftTested_flagged_other {q : Nat} {p : Port} {c : Cause} (h : DriftTested s t q) (drift : p = .pp → Cause.drift ≠ c)
    (inventory : p = .tp → Cause.inventory ≠ c) : s.flagged t p c False := by
  by_cases drifts : drifting s q
  · obtain ⟨plant, trade⟩ := h.raised drifts
    cases p with
    | pp => exact flagged_of_raisedOnly_other plant (drift rfl)
    | tp => exact flagged_of_raisedOnly_other trade (inventory rfl)
    | gp => exact flagged_of_frame h.frame
  · obtain ⟨-, -, ports⟩ := h.steady drifts
    exact flagged_of_causes (by unfold State.port; rw [ports])

theorem meterTested_tested (s : State) (report : MeterReport) :
    DriftTested (meterTotals s report) (meterTested s report) report.pressure.toNat := driftTest_tested _ _

/-- A cause that neither the drift test nor the recovery raises. -/
theorem flagged_timed (s : State) (report : MeterReport) {p : Port} {c : Cause} {raised : Prop}
    (totals : s.flagged (meterTotals s report) p c raised) (drift : p = .pp → Cause.drift ≠ c) (inventory : p = .tp → Cause.inventory ≠ c) :
    s.flagged (meterTimed s report) p c raised := by
  have other : (meterTotals s report).flagged (meterTimed s report) p c False :=
    driftTested_flagged_other (t := meterTested s report) (meterTested_tested s report) drift inventory
  exact flagged_congr (flagged_trans totals other) (by rw [or_false])

theorem flagged_totals_tp (s : State) (report : MeterReport) (c : Cause) : s.flagged (meterTotals s report) .tp c False :=
  flagged_of_frame (totals_frame s report)

theorem meterEnds_flagged_pp {r : State} {c : Cause} (h : MeterEnds r t) : r.flagged t .pp c False := flagged_of_causes h.plant

theorem meterEnds_flagged_tp {r : State} (h : MeterEnds r t) : r.flagged t .tp .inventory (r.inv.metering = .stale) := by
  have trade := h.trade
  by_cases stale : r.inv.metering = .stale
  · rw [if_pos stale] at trade
    exact flagged_congr (flagged_of_raisedOnly trade) (by simp [stale])
  · rw [if_neg stale] at trade
    exact flagged_congr (flagged_of_causes (by rw [trade])) (by simp [stale])

theorem meterEnds_flagged_tp_other {r : State} {c : Cause} (h : MeterEnds r t) (other : Cause.inventory ≠ c) : r.flagged t .tp c False := by
  have trade := h.trade
  split at trade
  · exact flagged_of_raisedOnly_other trade other
  · exact flagged_of_causes (by rw [trade])

/-! ### What the stages leave alone -/

theorem timed_trc (s : State) (report : MeterReport) : (meterTimed s report).trc = s.trc :=
  (frame_trc (timed_frame s report)).trans (frame_trc (totals_frame s report))

theorem timed_train (s : State) (report : MeterReport) (x : Train) : (meterTimed s report).train x = s.train x :=
  train_congr (timed_trc s report) x

theorem timed_du (s : State) (report : MeterReport) : (meterTimed s report).du = s.du :=
  (frame_du (timed_frame s report)).trans (frame_du (totals_frame s report))

theorem timed_settings (s : State) (report : MeterReport) : (meterTimed s report).settings = s.settings :=
  (frame_settings (timed_frame s report)).trans (frame_settings (totals_frame s report))

theorem timed_now (s : State) (report : MeterReport) : (meterTimed s report).now = s.now :=
  (frame_now (timed_frame s report)).trans (frame_now (totals_frame s report))

theorem totals_settings (s : State) (report : MeterReport) : (meterTotals s report).settings = s.settings := frame_settings (totals_frame s report)

theorem totals_prj (s : State) (report : MeterReport) : (meterTotals s report).prj = s.prj := frame_prj (totals_frame s report)

theorem tested_tb (s : State) (report : MeterReport) : (meterTested s report).tb = s.tb :=
  (frame_tb (meterTested_tested s report).frame).trans (frame_tb (totals_frame s report))

theorem reported_tb (s : State) (report : MeterReport) : (meterReported s report).tb = s.tb :=
  (frame_tb (reported_frame s report)).trans (tested_tb s report)

theorem reported_slog (s : State) (report : MeterReport) : (meterReported s report).slog = (meterTotals s report).slog :=
  (frame_slog (reported_frame s report)).trans (frame_slog (timed_frame s report))

theorem reported_metering (s : State) (report : MeterReport) : (meterReported s report).inv.metering = s.inv.metering := by
  rw [reported_inv]; exact (totals_metering s report).metering

/-- The drift of a METER shows in the status that it leaves. -/
theorem drifting_iff (s : State) (report : MeterReport) :
    drifting (meterTotals s report) report.pressure.toNat ↔
      s.inv.status = .tracking ∧ (meterTested s report).inv.status = .drifted := by
  have tested := meterTested_tested s report
  have status := (totals_metering s report).status
  constructor
  · exact fun drifts => ⟨by rw [← status]; exact drifts.1, tested.drifted drifts⟩
  · rintro ⟨tracking, drifted⟩
    by_contra steady
    rw [(tested.steady steady).1, status, tracking] at drifted
    cases drifted

/-! ### Reviews of a METER (R11, R70) -/

theorem afterRequests_one (review : s.reviewRequested t) : t.afterRequests s.prj 1 := by
  refine ⟨nofun, fun _ idle anchored c set => ⟨_, snapshot_clock t c, ?_⟩, fun _ cannot => reviewRequested_waits review cannot⟩
  rw [reviewRequested_starts review idle anchored set]
  rfl

/-- The review of a drift is requested before those of the trips. -/
theorem timed_afterRequests (s : State) (report : MeterReport) [Decidable (drifting (meterTotals s report) report.pressure.toNat)] :
    (meterTimed s report).afterRequests s.prj (if drifting (meterTotals s report) report.pressure.toNat then 1 else 0) := by
  have tested := meterTested_tested s report
  split
  · next drifts =>
    have one := afterRequests_one (tested.review drifts)
    rw [totals_prj] at one
    exact afterRequests_congr one rfl rfl rfl
  · next steady =>
    have zero := afterRequests_zero (meterTested s report)
    rw [(tested.steady steady).2.1, totals_prj] at zero
    exact afterRequests_congr zero rfl rfl rfl

/-- The reports of a METER, with the reviews counted from before it. -/
theorem meterReported_reportsOf (s : State) (report : MeterReport) [Decidable (drifting (meterTotals s report) report.pressure.toNat)] :
    ReportsOf (meterTimed s report) (meterReported s report) report s.prj
      (if drifting (meterTotals s report) report.pressure.toNat then 1 else 0) Train.all :=
  takeReports_reportsOf report (timed_afterRequests s report)

theorem dwellFollows_of_earlier (trc : u.trc = s.trc) (du : u.du = s.du) (cfg : u.cfg = s.cfg) (now : u.now = s.now)
    (h : u.DwellFollows t) : s.DwellFollows t := by
  have emptied (k : Kind) : u.emptied t k ↔ s.emptied t k := by unfold State.emptied; simp only [train_congr trc]
  exact ⟨by rw [← cfg, ← now, ← emptied]; exact h.turbines, by rw [← cfg, ← now, ← emptied, ← emptied]; exact h.compressors,
    by rw [← cfg, ← emptied, ← emptied, ← du]; exact h.kept⟩

end Sys2Proof.Proofs
end

section
/-! The obligations about METER (O14 to O16, O20), by the stages of a METER. -/

namespace Sys2Proof.Proofs
open Sys2Proof Sys2Proof.Machine

variable {s t u : State} {report : MeterReport}

/-! ### The reports (O20) -/

theorem train_of_meterEnds {r : State} (h : MeterEnds r t) (x : Train) : t.train x = r.train x := by
  unfold State.train; rw [h.trc]

section Record
variable {now output : Nat} {cfg : TrainSettings} {status : Reported} {r : TrainRecord}

theorem reportedRecord_of_trip (untripped : r.state ≠ .tripped) (trips : (reportOutcome r.state status).1 = .tripped) :
    reportedRecord now cfg status output r =
      { ({ r with reported := some status, output := output, state := .tripped } : TrainRecord).leave with
        reason := (reportOutcome r.state status).2 } := by
  unfold reportedRecord
  rw [trips]
  exact if_neg fun same => untripped same.symm

theorem reportedRecord_of_run (starting : r.state = .starting) (runs : (reportOutcome r.state status).1 = .running) :
    reportedRecord now cfg status output r =
      { ({ r with reported := some status, output := output, state := .running } : TrainRecord).leave with
        minRun := { expiry := some (now + cfg.minRun), expired := false } } := by
  unfold reportedRecord
  rw [runs]
  exact if_neg (by rw [starting]; nofun)

theorem reportedRecord_of_stop (stopping : r.state = .stopping) (stops : (reportOutcome r.state status).1 = .stopped) :
    reportedRecord now cfg status output r =
      { ({ r with reported := some status, output := output, state := .stopped } : TrainRecord).leave with
        minDown := { expiry := some (now + cfg.minDown), expired := false } } := by
  unfold reportedRecord
  rw [stops]
  exact if_neg (by rw [stopping]; nofun)

theorem reportedRecord_of_lock (tripped : r.state = .tripped) (locks : (reportOutcome r.state status).1 = .locked) :
    reportedRecord now cfg status output r =
      { ({ r with reported := some status, output := output, state := .locked } : TrainRecord).leave with
        cooldown := { expiry := some (now + cfg.cooldown), expired := false }, releaseTaken := false } := by
  unfold reportedRecord
  rw [locks]
  exact if_neg (by rw [tripped]; nofun)

end Record

/-- Settles O20: each train's report follows its own outcome, and what the trips add up to is `ReportsOf`'s. -/
theorem reportedStatusesMoveTheTrains : Obligations.ReportedStatusesMoveTheTrains := by
  intro s t report free valid done
  rw [exec_meter_of_valid free valid] at done
  have ends := meterEnds s report 0x10#8 ((s.taken .pp).workMeter report).meterFields
  rw [Host.Outcome.next.inj done] at ends
  classical
  have taken := meterReported_reportsOf s report
  have drift := drifting_iff s report
  have status : t.inv.status = (meterTested s report).inv.status := by rw [ends.inv, reported_inv]
  rw [← status] at drift
  have trip := flagged_timed s report (flagged_totals s report (c := .trip) (by decide)) (fun _ => by decide) nofun
  have capacity := flagged_timed s report (flagged_totals_tp s report .capacity) nofun (fun _ => by decide)
  have train (x : Train) : t.train x = (meterReported s report).train x := train_of_meterEnds ends x
  have newly : newlyTripped (meterTimed s report) (meterReported s report) =
      fun x => decide ((t.train x).state = .tripped) && decide ((s.train x).state ≠ .tripped) := by
    funext x; unfold newlyTripped; rw [train, timed_train]
  have some : (∃ x ∈ Train.all, newlyTripped (meterTimed s report) (meterReported s report) x = true) ↔
      (Train.all.filter fun x => decide ((t.train x).state = .tripped) && decide ((s.train x).state ≠ .tripped)) ≠ [] := by
    rw [newly, Ne, List.filter_eq_nil_iff]; simp
  refine ⟨fun x => ⟨fun absent => ?_, fun status present known => ?_⟩, ?_, ?_, ?_, ?_, ?_⟩
  · obtain ⟨record, setpoint⟩ := taken.others x (.inr (by rw [timed_train]; exact absent))
    rw [train, record, timed_train, ends.du]
    exact ⟨rfl, setpoint.trans (by rw [timed_du])⟩
  · obtain ⟨record, setpoint⟩ := taken.records x (Train.mem_all x) status (by rw [timed_train]; exact present) known
    rw [timed_train, timed_now, trainCfg_congr (timed_settings s report), ← train] at record
    rw [timed_train, trainCfg_congr (timed_settings s report), timed_du] at setpoint
    dsimp only
    refine ⟨fun stays => ?_, fun untripped trips => ?_, fun starting runs => ?_, fun stopping stops => ?_, fun tripped locks => ?_, ?_⟩
    · rw [record, reportedRecord_of_stays stays, stays]
    · rw [record, reportedRecord_of_trip untripped trips, trips]; rfl
    · rw [record, reportedRecord_of_run starting runs, runs]; rfl
    · rw [record, reportedRecord_of_stop stopping stops, stops]; rfl
    · rw [record, reportedRecord_of_lock tripped locks, locks]; rfl
    · rw [ends.du]; exact setpoint
  · rw [ends.trc, ← newly]
    have generation := taken.generation
    rw [timed_trc] at generation
    exact generation
  · exact flagged_congr (flagged_trans (flagged_trans trip taken.trip) (meterEnds_flagged_pp ends)) (by rw [some]; simp)
  · exact flagged_congr (flagged_trans (flagged_trans capacity taken.capacity) (meterEnds_flagged_tp_other ends (by decide)))
      (by rw [some]; simp)
  · rw [← newly]
    simp only [← drift]
    exact afterRequests_congr taken.reviews (frame_prj ends.frame) (by rw [ends.inv]) (by rw [frame_tb ends.frame])
  · refine dwellFollows_congr (dwellFollows_of_earlier (timed_trc s report) (timed_du s report)
      (cfg_congr (timed_settings s report)) (timed_now s report) taken.dwell) (fun x => by rw [train]) (by rw [ends.du]) (by rw [ends.du])

/-! ### The account (O15) -/

theorem perTier_ext {α : Type} {v w : PerTier α} (h : ∀ k, v.get k = w.get k) : v = w := by
  cases v; cases w
  have one := h .t1
  have two := h .t2
  have three := h .t3
  simp only [PerTier.get] at one two three
  rw [one, two, three]

/-- Settles O15. -/
theorem meterMovesTheAccount : Obligations.MeterMovesTheAccount := by
  intro s t report free valid done
  rw [exec_meter_of_valid free valid] at done
  have ends := meterEnds s report 0x10#8 ((s.taken .pp).workMeter report).meterFields
  rw [Host.Outcome.next.inj done] at ends
  have mass : t.inv.mass = (meterTotals s report).inv.mass := by rw [ends.inv, reported_inv]
  have heat : t.inv.heat = (meterTotals s report).inv.heat := by rw [ends.inv, reported_inv]
  have slog : t.slog = (meterTotals s report).slog := (frame_slog ends.frame).trans (reported_slog s report)
  have later {raised : Prop} (totals : s.flagged (meterTotals s report) .pp .clamp raised) : s.flagged t .pp .clamp raised :=
    flagged_congr (flagged_trans (flagged_trans (flagged_timed s report totals (fun _ => by decide) nofun)
      (takeReports_flagged_other report (meterTimed s report) .pp (by decide) (by decide))) (meterEnds_flagged_pp ends))
      (by rw [or_false, or_false])
  have taken (p : Prop) (h : (s.taken .pp).flagged (meterTotals s report) .pp .clamp p) : s.flagged (meterTotals s report) .pp .clamp p :=
    flagged_congr (flagged_trans (flagged_of_causes (by rw [port_taken])) h) (by rw [false_or])
  refine ⟨fun unloaded unanchored => ?_, fun unanchored => ?_, fun c loaded => ?_⟩
  · have unmoved : Unmoved (s.taken .pp) (meterTotals s report) := workTotalisers_unmoved (s := s.taken .pp) unloaded unanchored report
    refine ⟨mass.trans unmoved.mass, heat.trans unmoved.heat, slog.trans unmoved.slog, later (taken False (flagged_of_causes ?_))⟩
    unfold State.port
    rw [unmoved.ports]
  · have metering := totals_metering s report
    have still : (meterTested s report) = meterTotals s report :=
      driftTest_of_unanchored (metering.status.trans unanchored) report.pressure.toNat
    rw [ends.inv, reported_inv, still]
    exact ⟨metering.status.trans unanchored, metering.drift⟩
  · have worked : TotalisersWorked (s.taken .pp) (meterTotals s report) c report := workTotalisers_worked (s := s.taken .pp) loaded report
    have heats (k : Tier) : t.inv.heat.get k = (s.heatAccount c report k).value := by rw [heat]; exact worked.heat k
    refine ⟨mass.trans worked.mass, heats, fun unanchored => ?_, later (taken _ worked.marks.clamp), slog.trans worked.marks.slog⟩
    obtain ⟨massValue, massSaturated⟩ := massAccount_unanchored unanchored c report
    refine ⟨(mass.trans worked.mass).trans massValue, perTier_ext fun k => (heats k).trans (heatAccount_unanchored unanchored c report k).1, ?_⟩
    simp only [List.any_cons, List.any_nil, massSaturated, (heatAccount_unanchored unanchored c report _).2, Bool.or_false]

/-! ### The drift test (O16) -/

theorem distance_eq (a b : Nat) (n : Nat) : n < distance a b ↔ (n : Int) < |(a : Int) - (b : Int)| := by
  unfold distance
  rcases le_total a b with le | le
  · rw [abs_of_nonpos (by omega)]; omega
  · rw [abs_of_nonneg (by omega)]; omega

/-- Settles O16: the review of a drift is requested before the reports are taken. -/
theorem driftTestFollowsThePressure : Obligations.DriftTestFollowsThePressure := by
  intro s t report c free valid anchored loaded done
  rw [exec_meter_of_valid free valid] at done
  have ends := meterEnds s report 0x10#8 ((s.taken .pp).workMeter report).meterFields
  rw [Host.Outcome.next.inj done] at ends
  classical
  have tested := meterTested_tested s report
  have metering := totals_metering s report
  have totalsLoaded : (meterTotals s report).settings = some c := (totals_settings s report).trans loaded
  have still : (meterTotals s report).inv.status ≠ .unanchored := by rw [metering.status]; exact anchored
  have mass : t.inv.mass = (meterTotals s report).inv.mass := by rw [ends.inv, reported_inv]
  have heat : t.inv.heat = (meterTotals s report).inv.heat := by rw [ends.inv, reported_inv]
  have drift : t.inv.drift = (meterTotals s report).nextDrift report.pressure.toNat := by
    rw [ends.inv, reported_inv]; exact tested.drift.trans (if_neg still)
  have status : t.inv.status = (meterTested s report).inv.status := by rw [ends.inv, reported_inv]
  have drifts : drifting (meterTotals s report) report.pressure.toNat ↔ s.inv.status = .tracking ∧ c.driftLimit ≤ t.inv.drift := by
    unfold drifting
    rw [metering.status, cfg_of_settings totalsLoaded, drift]
  have prj : t.prj = (meterReported s report).prj := frame_prj ends.frame
  dsimp only
  refine ⟨?_, ?_, ?_, ?_, fun is idle k set => ?_, fun is cannot => ?_⟩
  · rw [drift, mass]
    unfold State.nextDrift State.estimatedPressure
    rw [totalsLoaded, cfg_of_settings totalsLoaded, metering.drift]
    exact if_congr (distance_eq _ _ _) rfl rfl
  · rw [status]
    by_cases is : drifting (meterTotals s report) report.pressure.toNat
    · rw [tested.drifted is, if_pos (drifts.mp is)]
    · rw [(tested.steady is).1, metering.status, if_neg fun no => is (drifts.mpr no)]
  · have timed : (meterTotals s report).flagged (meterTested s report) .pp .drift (drifting (meterTotals s report) report.pressure.toNat) := by
      by_cases is : drifting (meterTotals s report) report.pressure.toNat
      · exact flagged_congr (flagged_of_raisedOnly (tested.raised is).1) (by simp [is])
      · exact flagged_congr (flagged_of_causes (by unfold State.port; rw [(tested.steady is).2.2])) (by simp [is])
    have reports := takeReports_flagged_other report (meterTimed s report) .pp (c := .drift) (by decide) (by decide)
    exact flagged_congr (flagged_trans (flagged_trans (flagged_trans (flagged_totals s report (c := .drift) (by decide)) timed) reports)
      (meterEnds_flagged_pp ends)) (by rw [false_or, or_false, or_false]; exact drifts)
  · have timed : (meterTotals s report).flagged (meterTested s report) .tp .inventory
        (drifting (meterTotals s report) report.pressure.toNat) := by
      by_cases is : drifting (meterTotals s report) report.pressure.toNat
      · exact flagged_congr (flagged_of_raisedOnly (tested.raised is).2) (by simp [is])
      · exact flagged_congr (flagged_of_causes (by unfold State.port; rw [(tested.steady is).2.2])) (by simp [is])
    have reports : (meterTimed s report).flagged (meterReported s report) .tp .inventory False :=
      takeReports_flagged_other report (meterTimed s report) .tp (by decide) (by decide)
    exact flagged_congr (flagged_trans (flagged_trans (flagged_trans (flagged_totals_tp s report .inventory) timed) reports)
      (meterEnds_flagged_tp ends)) (by rw [false_or, or_false, reported_metering]; exact or_congr_left drifts)
  · have is := drifts.mpr is
    have review := tested.review is
    have starts := reviewRequested_starts review (by rw [totals_prj]; exact idle) (by rw [tested.drifted is]; decide)
      (c := k) (by rw [tested_tb]; exact set)
    have timedPrj : (meterTimed s report).prj =
        { (meterTotals s report).prj with running := some (.review ((meterTested s report).snapshot k)), pendingReview := false } := starts
    have taken := takeReports_reportsOf report (afterRequests_zero (meterTimed s report))
    have running : (meterReported s report).prj.running = some (.review ((meterTested s report).snapshot k)) := by
      obtain ⟨first, -, waits⟩ := taken.reviews
      rcases Nat.eq_zero_or_pos (0 + (Train.all.filter (newlyTripped (meterTimed s report) ((meterTimed s report).takeReports report))).length)
        with zero | more
      · exact (congrArg Engine.running (first zero)).trans (by rw [timedPrj])
      · exact (congrArg Engine.running (waits more (.inl (by rw [timedPrj]; nofun)))).trans (by rw [timedPrj])
    refine ⟨(meterTested s report).snapshot k, by rw [prj]; exact running, rfl, ?_, ?_, tested.drifted is, ?_, ?_, ?_, fun x => ?_, ?_, ?_⟩
    · rw [mass]; show (meterTested s report).inv.mass = _; rw [tested.rest]
    · rw [heat]; show (meterTested s report).inv.heat = _; rw [tested.rest]
    · show (meterTested s report).inv.status.margin = 2
      rw [tested.drifted is]; rfl
    · exact (congrArg Inventory.epoch tested.rest).trans metering.epoch
    · exact congrArg TrainController.generation (timed_trc s report)
    · exact (PerTrain.get_of _ x).trans (congrArg TrainRecord.state (timed_train s report x))
    · exact congrArg (fun b => b.blocks.map Block.terms) ((frame_book tested.frame).trans (frame_book (totals_frame s report)))
    · exact cfg_of_settings ((frame_settings tested.frame).trans totalsLoaded)
  · have is := drifts.mpr is
    have taken := meterReported_reportsOf s report
    obtain ⟨-, -, waits⟩ := taken.reviews
    rw [prj]
    refine waits (by rw [if_pos is]; omega) (cannot.imp id fun unset => .inr (by rw [reported_tb]; exact unset))

/-! ### Taken or refused (O14) -/

theorem reported_isSome_iff (code : Byte) : (Reported.ofCode code).isSome = true ↔ 1 ≤ code.toNat ∧ code.toNat ≤ 5 := by
  unfold Reported.ofCode
  split <;> simp_all
  omega

theorem checked_iff (s : State) (x : Train) :
    s.checksTrain x = true ↔ ∀ c, s.settings = some c → (c.trains.get x).installed = true := by
  unfold State.checksTrain
  cases s.settings with
  | none => simp
  | some c => simp

theorem meterValid_iff (s : State) (report : MeterReport) :
    s.meterValid report = true ↔
      ∀ x, (∀ c, s.settings = some c → (c.trains.get x).installed = true) →
        1 ≤ (report.trains.get x).status.toNat ∧ (report.trains.get x).status.toNat ≤ 5 ∧ (report.trains.get x).output.toNat ≤ 250000 := by
  unfold State.meterValid maxOutput
  rw [List.all_eq_true]
  refine ⟨fun h x checked => ?_, fun h x _ => ?_⟩
  · have ok := h x (Train.mem_all x)
    rw [(checked_iff s x).mpr checked] at ok
    simp only [Bool.not_true, Bool.false_or, Bool.and_eq_true, decide_eq_true_eq, reported_isSome_iff] at ok
    exact ⟨ok.1.1, ok.1.2, ok.2⟩
  · by_cases checked : s.checksTrain x = true
    · obtain ⟨low, high, output⟩ := h x ((checked_iff s x).mp checked)
      rw [(reported_isSome_iff _).mpr ⟨low, high⟩, decide_eq_true output]
      exact Bool.or_true _
    · rw [Bool.eq_false_iff.mpr checked]; rfl

/-- Between `s` and `t` nothing of a port changed but its cause flags. -/
def CausesOnly (s t : State) (p : Port) : Prop := t.port p = { s.port p with causes := (t.port p).causes }

theorem causesOnly_of_same {p : Port} (same : t.port p = s.port p) : CausesOnly s t p := by unfold CausesOnly; rw [same]

theorem causesOnly_of_raisedOnly {p : Port} {c : Cause} (h : s.raisedOnly t p c) : CausesOnly s t p := by
  unfold State.raisedOnly at h
  unfold CausesOnly
  rw [h]

theorem CausesOnly.trans {p : Port} (h : CausesOnly s t p) (g : CausesOnly t u p) : CausesOnly s u p := by
  unfold CausesOnly at *
  rw [g, h]

theorem takeReports_causesOnly (s : State) (report : MeterReport) : CausesOnly s (s.takeReports report) .pp :=
  foldl_keeps (I := fun v => CausesOnly s v .pp) (fun v x h => by
    have step := takeReport_step report v x
    refine h.trans ?_
    by_cases trips : newlyTripped v (State.takeReport report v x) x = true
    · exact causesOnly_of_raisedOnly (step.trips trips).2.1
    · exact causesOnly_of_same (by unfold State.port; rw [(step.quiet (Bool.eq_false_iff.mpr trips)).2.2])) _ (causesOnly_of_same rfl)

theorem totals_causesOnly (s : State) (report : MeterReport) : CausesOnly (s.taken .pp) (meterTotals s report) .pp :=
  KeptByTotalisers.workTotalisers (I := fun v => CausesOnly (s.taken .pp) v .pp)
    { inv := fun _ h => h
      clamp := fun f h => h.trans ((causesOnly_of_raisedOnly (port_raise _ .pp .clamp)).trans
        (causesOnly_of_same (port_of_onlyChanges (markRecord_frame _ f) .pp (by decide)))) }
    report (causesOnly_of_same rfl)

theorem tested_causesOnly (s : State) (report : MeterReport) : CausesOnly (meterTotals s report) (meterTested s report) .pp := by
  have tested := meterTested_tested s report
  by_cases drifts : drifting (meterTotals s report) report.pressure.toNat
  · exact causesOnly_of_raisedOnly (tested.raised drifts).1
  · exact causesOnly_of_same (by unfold State.port; rw [(tested.steady drifts).2.2])

theorem workMeter_causesOnly (s : State) (report : MeterReport) : CausesOnly (s.taken .pp) ((s.taken .pp).workMeter report) .pp := by
  have timed : CausesOnly (s.taken .pp) (meterTimed s report) .pp := (totals_causesOnly s report).trans (tested_causesOnly s report)
  rw [workMeter_eq]
  exact (timed.trans (takeReports_causesOnly (meterTimed s report) report)).trans
    (causesOnly_of_same (port_of_onlyChanges (recover_frame ((meterReported s report).withDu
      { (meterReported s report).du with metered := (meterReported s report).meteredOutput })) .pp (by decide)))

/-- The outputs of the trains that are not ABSENT, summed over all trains of a list (R129). -/
theorem sum_present (l : List Train) (p : Train → Prop) [DecidablePred p] (f : Train → Nat) :
    ((l.filter fun x => decide (¬ p x)).map f).sum = (l.map fun x => if p x then 0 else f x).sum := by
  induction l with
  | nil => rfl
  | cons x rest ih =>
    by_cases absent : p x
    · rw [List.filter_cons_of_neg (by simp [absent]), ih, List.map_cons, List.sum_cons, if_pos absent, zero_add]
    · rw [List.filter_cons_of_pos (by simp [absent]), List.map_cons, List.sum_cons, List.map_cons, List.sum_cons, if_neg absent, ← ih]

theorem meteredOutput_eq (s : State) :
    s.meteredOutput =
      (([Train.e1, .e2, .e3].map fun x => if (s.train x).state = .absent then 0 else (s.train x).output).sum : Int) -
      (([Train.c1, .c2, .c3, .c4].map fun x => if (s.train x).state = .absent then 0 else (s.train x).output).sum : Int) := by
  rw [← sum_present, ← sum_present]
  rfl

theorem meterFields_eq (s : State) :
    s.meterFields =
      s32 s.du.target ++
        (Train.all.flatMap fun x =>
          match (s.train x).state with
          | .starting => u8 1 ++ u32 0
          | .running => u8 0 ++ u32 (s.du.setpoint.get x)
          | .stopping => u8 2 ++ u32 0
          | _ => u8 0 ++ u32 0) ++
        u32 s.inv.mass ++ u32 s.inv.heat.t1 ++ u32 s.inv.heat.t2 ++ u32 s.inv.heat.t3 ++
        u16 (match s.settings with | none => 0 | some c => forwardTable c.table s.inv.mass) ++
        u8 s.inv.drift ++ u32 s.inv.epoch.toNat := rfl

/-- Settles O14. -/
theorem meterIsTakenOrRefused : Obligations.MeterIsTakenOrRefused := by
  intro s report free
  refine ⟨fun x checked bad => onlyAnswers_plant (onlyAnswers_of free exec_meter (if_neg fun valid => ?_)), fun good => ?_⟩
  · obtain ⟨low, high, output⟩ := (meterValid_iff s report).mp valid x checked
    omega
  · have done := exec_meter_of_valid free ((meterValid_iff s report).mpr good)
    have ends := meterEnds s report 0x10#8 ((s.taken .pp).workMeter report).meterFields
    have replied : s.replied (((s.taken .pp).workMeter report).respond .pp 0x10#8 .ok ((s.taken .pp).workMeter report).meterFields) .pp
        0x10#8 .ok ((s.taken .pp).workMeter report).meterFields := by
      have causes := workMeter_causesOnly s report
      unfold CausesOnly at causes
      rw [port_taken] at causes
      exact replied_respond _ _ _ causes
    have fields := meterFields_eq ((s.taken .pp).workMeter report)
    have settings : ((s.taken .pp).workMeter report).settings = s.settings := frame_settings (s := s.taken .pp) (workMeter_frame (s.taken .pp) report)
    have frame : s.onlyChanges (((s.taken .pp).workMeter report).respond .pp 0x10#8 .ok ((s.taken .pp).workMeter report).meterFields)
        [.inv, .prj, .trc, .du, .slog, .pp, .tp] :=
      respond_frame_of (onlyChanges_trans (onlyChanges_mono (taken_frame s .pp) (by decide)) (workMeter_frame _ report)) (by decide) _ _ _
    rw [settings] at fields
    refine ⟨_, done, frame, ?_, ?_, ?_, fun x => ?_, fun k => ?_, ?_, fun stale => ?_, ?_, ?_⟩
    · rw [ends.inv, reported_inv]
    · rw [ends.inv]
    · rw [ends.inv, reported_inv]; exact (totals_metering s report).epoch
    · rw [ends.inv, reported_inv]; exact (workTotalisers_bases (s.taken .pp) report).1 x
    · rw [ends.inv, reported_inv]; exact (workTotalisers_bases (s.taken .pp) report).2 k
    · classical
      have hold := (meterReported_reportsOf s report).permitHold
      rw [timed_trc] at hold
      rw [ends.trc, reported_metering, hold]
    · exact (meterEnds_flagged_tp ends).1 ((reported_metering s report).trans stale)
    · rw [ends.du]
      show (meterReported s report).meteredOutput = _
      rw [meteredOutput_eq]
      simp only [train_of_meterEnds ends]
    · rw [fields] at replied ⊢
      exact replied

end Sys2Proof.Proofs
end

section
/-! The interval clock: CLOCK SET and CLOCK TRIM (O36, O37) and the boundary (O41). -/

namespace Sys2Proof.Proofs
open Sys2Proof Sys2Proof.Machine

variable {s t u : State}

/-! ### The boundary (R39) -/

theorem closeRecord_causesOnly (s : State) : CausesOnly s s.closeRecord .tp := by
  cases h : s.slog.current with
  | none => rw [closeRecord_of_none h]; exact causesOnly_of_same rfl
  | some r =>
    rw [closeRecord_of_some h]
    exact causesOnly_of_raisedOnly (s := s) (t := State.raise _ _ _) (port_raise _ .tp .record)

/-- A boundary changes nothing of the trade port but its cause flags. -/
theorem boundary_causesOnly {c : Clock} (set : s.tb.clock = some c) (m : Nat) : CausesOnly s (s.boundary m) .tp := by
  have before : s.onlyChanges ((((s.withTb { s.tb with clock := c.next m }).expireBlocks c.interval).reclamp s.band)) [.tb, .book, .rsv, .gp] :=
    onlyChanges_trans (onlyChanges_mono (withTb_frame s _) (by decide)) (onlyChanges_trans
      (onlyChanges_mono (expireBlocks_frame _ _) (by decide)) (onlyChanges_mono (reclamp_frame _ _) (by decide)))
  rw [boundary_of_clock set]
  generalize ((s.withTb { s.tb with clock := c.next m }).expireBlocks c.interval).reclamp s.band = v at before
  have after : v.closeRecord.onlyChanges (v.closeRecord.openRecord false).requestReview [.slog, .prj] :=
    onlyChanges_trans (onlyChanges_mono (openRecord_frame _ _) (by decide)) (onlyChanges_mono (requestReview_frame _) (by decide))
  exact ((causesOnly_of_same (port_of_onlyChanges before .tp (by decide))).trans (closeRecord_causesOnly v)).trans
    (causesOnly_of_same (port_of_onlyChanges after .tp (by decide)))

/-- Settles O41. -/
theorem boundaryClosesTheInterval : Obligations.BoundaryClosesTheInterval := by
  intro s
  dsimp only
  have reach : exec .intervalBoundary s = .next s.reachBoundary := rfl
  rw [reach]
  unfold State.reachBoundary
  dsimp only
  refine ⟨finishInstant_settled, fun unset => by rw [unset], fun c set => ⟨fun within => ?_, fun beyond => ?_⟩⟩
  · generalize s.finishInstant = u at set within
    rw [set]
    dsimp only
    rw [if_pos (by exact within)]
    have reached : u.cfg.intervalLength * 60000 ≤ c.millis + (u.cfg.intervalLength * 60000 - c.millis) := by omega
    have takes := passTime_takesBoundary set reached
    have rest : c.millis + (u.cfg.intervalLength * 60000 - c.millis) - u.cfg.intervalLength * 60000 =
        c.millis - u.cfg.intervalLength * 60000 := by omega
    rw [rest] at takes
    refine ⟨u.passTime (u.cfg.intervalLength * 60000 - c.millis), rfl, takes, passTime_tb u _, ?_⟩
    have boundary : u.passTime (u.cfg.intervalLength * 60000 - c.millis) =
        (u.withTb { u.tb with phase := u.tb.phase + (u.cfg.intervalLength * 60000 - c.millis) }).boundary
          (c.millis + (u.cfg.intervalLength * 60000 - c.millis) - u.cfg.intervalLength * 60000) := by
      unfold State.passTime State.runClock
      rw [State.withTb_tb, set]
      exact if_neg (Nat.not_lt.mpr reached)
    rw [boundary]
    exact boundary_causesOnly (s := u.withTb { u.tb with phase := u.tb.phase + (u.cfg.intervalLength * 60000 - c.millis) }) set _
  · rw [set]
    exact congrArg Host.Outcome.next (if_neg (Nat.not_le.mpr beyond))

/-! ### CLOCK SET (R42) -/

theorem exec_clockSet {interval millis : Word} :
    exec (.clockSet interval millis) s = .next (s.takeFrame .tp fun s =>
      match s.clockSetRefusal interval.toNat millis.toNat with
      | some refusal => s.respond .tp 0x20#8 refusal []
      | none =>
        (s.takeClockSet interval.toNat millis.toNat).respond .tp 0x20#8 .ok
          (u32 (s.takeClockSet interval.toNat millis.toNat).currentInterval ++
            u32 (s.takeClockSet interval.toNat millis.toNat).currentMillis)) := rfl

theorem clockSet_refused {interval millis : Word} {r : Result} (free : s.free .tp)
    (refused : s.clockSetRefusal interval.toNat millis.toNat = some r) : s.onlyAnswers (.clockSet interval millis) .tp 0x20#8 r [] := by
  refine onlyAnswers_of free exec_clockSet ?_
  have refused : (s.taken .tp).clockSetRefusal interval.toNat millis.toNat = some r := refused
  rw [refused]

theorem clockSetRefusal_of_loaded {c : Settings} (loaded : s.settings = some c) (interval millis : Nat) :
    s.clockSetRefusal interval millis =
      if s.tb.clock.isSome then some .clockLocked
      else if interval = 0 ∨ 4000000000 < interval ∨ c.intervalLength * 60000 ≤ millis then some .badField
      else none := by
  unfold State.clockSetRefusal
  rw [loaded]
  rfl

/-- A pending review starts where it can (R68). -/
theorem startPendingReview_prj (s : State) :
    s.startPendingReview.prj =
      match s.tb.clock with
      | some c =>
        if s.prj.pendingReview = true ∧ s.prj.running = none ∧ s.inv.status ≠ .unanchored then
          { s.prj with running := some (.review (s.snapshot c)), pendingReview := false }
        else s.prj
      | none => s.prj := by
  unfold State.startPendingReview State.startReview
  rw [canReview_eq, anchored_eq_decide]
  cases s.tb.clock with
  | none => simp
  | some c =>
    simp only [Option.isSome_some, Bool.and_true, Bool.and_eq_true, Option.isNone_iff_eq_none, decide_eq_true_eq]
    split <;> rfl

theorem currentBlock_clockSet (s : State) (interval millis : Nat) :
    (clockSet s interval millis).currentBlock = s.book.blocks.find? fun b => b.terms.covers interval :=
  currentBlock_of_clock (c := { interval := interval, millis := millis }) rfl

theorem tracked_iff (x : InventoryStatus) : (x = .tracking ∨ x = .drifted) ↔ x ≠ .unanchored := by cases x <;> decide

/-- What CLOCK SET does once taken (R42, R68, R149, R154). -/
theorem takeClockSet_spec (s : State) (interval millis : Nat) :
    let clock : Clock := { interval := interval, millis := millis }
    (s.takeClockSet interval millis).tb = { s.tb with clock := some clock } ∧
      (s.takeClockSet interval millis).slog =
        { ring := trimRing s.slog.ring interval, current := some (openedRecord (clockSet s interval millis) clock true) } ∧
      (s.takeClockSet interval millis).prj =
        (if s.prj.pendingReview = true ∧ s.prj.running = none ∧ s.inv.status ≠ .unanchored then
          { s.prj with running := some (.review ((s.takeClockSet interval millis).snapshot clock)), pendingReview := false }
        else s.prj) ∧
      s.onlyChanges (s.takeClockSet interval millis) [.tb, .slog, .prj] := by
  dsimp only
  rw [takeClockSet_eq, openRecord_of_clock (c := { interval := interval, millis := millis }) rfl]
  generalize hv : (clockSet s interval millis).withSlog _ = v
  have g := startPendingReview_frame v
  have prj := startPendingReview_prj v
  have frame : s.onlyChanges v [.tb, .slog] := by
    rw [← hv]
    exact onlyChanges_trans (onlyChanges_mono (withTb_frame s _) (by decide)) (onlyChanges_trans
      (onlyChanges_mono (withSlog_frame _ _) (by decide)) (onlyChanges_mono (withSlog_frame _ _) (by decide)))
  have tb : v.tb = { s.tb with clock := some { interval := interval, millis := millis } } := by rw [← hv]; rfl
  refine ⟨(frame_tb g).trans tb, (frame_slog g).trans (by rw [← hv]; rfl), ?_,
    onlyChanges_trans (onlyChanges_mono frame (by decide)) (onlyChanges_mono g (by decide))⟩
  rw [tb] at prj
  dsimp only at prj
  rw [frame_prj frame, frame_inv frame] at prj
  rw [prj, snapshot_congr (frame_inv g) (frame_trc g) (frame_book g) (frame_settings g)]

/-- Settles O36. -/
theorem clockSetOpensThePartialRecord : Obligations.ClockSetOpensThePartialRecord := by
  intro s interval millis free
  refine ⟨fun unloaded => clockSet_refused free (by unfold State.clockSetRefusal; rw [unloaded]), fun c loaded => ?_⟩
  have refusal := clockSetRefusal_of_loaded loaded interval.toNat millis.toNat
  refine ⟨fun set => clockSet_refused free (refusal.trans (if_pos (Option.isSome_iff_ne_none.mpr set))),
    fun unset bad => clockSet_refused free ?_, fun unset good => ?_⟩
  · rw [unset] at refusal
    exact refusal.trans ((if_neg nofun).trans (if_pos (by omega)))
  · rw [unset] at refusal
    have accepted : (s.taken .tp).clockSetRefusal interval.toNat millis.toNat = none :=
      refusal.trans ((if_neg nofun).trans (if_neg (by omega)))
    obtain ⟨tb, slog, prj, frame⟩ := takeClockSet_spec (s.taken .tp) interval.toNat millis.toNat
    have done := exec_taken free (exec_clockSet (interval := interval) (millis := millis))
    rw [accepted] at done
    dsimp only at done
    have tp : ((s.taken .tp).takeClockSet interval.toNat millis.toNat).port .tp = (s.taken .tp).port .tp :=
      port_of_onlyChanges frame .tp (by decide)
    have answer : u32 ((s.taken .tp).takeClockSet interval.toNat millis.toNat).currentInterval ++
        u32 ((s.taken .tp).takeClockSet interval.toNat millis.toNat).currentMillis = u32 interval.toNat ++ u32 millis.toNat := by
      unfold State.currentInterval State.currentMillis; rw [tb]; rfl
    rw [answer] at done
    have snapshot (v : State) (k : Byte) (r : Result) (l : List Byte) (clock : Clock) :
      (v.respond .tp k r l).snapshot clock = v.snapshot clock := rfl
    generalize (s.taken .tp).takeClockSet interval.toNat millis.toNat = v at tb slog prj frame done tp
    refine ⟨_, done, respond_frame_of (onlyChanges_trans (onlyChanges_mono (taken_frame s .tp) (by decide))
      (onlyChanges_mono frame (by decide))) (by decide) _ _ _, tb, ?_, fun pending idle anchored => ?_, fun cannot => ?_,
      repliedPlain_respond _ _ _ tp⟩
    · show v.slog = _
      rw [slog]
      unfold openedRecord
      rw [currentBlock_clockSet]
      have mass : (if (s.taken .tp).inv.status = .unanchored then none else some (s.taken .tp).inv.mass) =
          if s.inv.status = .tracking ∨ s.inv.status = .drifted then some s.inv.mass else none := by
        rw [taken_inv]
        by_cases unanchored : s.inv.status = .unanchored
        · rw [if_pos unanchored, if_neg fun tracked => (tracked_iff _).mp tracked unanchored]
        · rw [if_neg unanchored, if_pos ((tracked_iff _).mpr unanchored)]
      rw [← mass]
      rfl
    · show v.prj = _
      rw [snapshot]
      exact prj.trans (if_pos ⟨pending, idle, (tracked_iff _).mp anchored⟩)
    · refine prj.trans (if_neg ?_)
      rintro ⟨pending, idle, anchored⟩
      rcases cannot with clear | busy | unanchored
      · rw [taken_prj, clear] at pending; cases pending
      · exact busy idle
      · exact unanchored ((tracked_iff _).mpr anchored)

/-! ### CLOCK TRIM (R43, R44) -/

theorem exec_clockTrim {correction : Half} :
    exec (.clockTrim correction) s = .next (s.takeFrame .tp fun s =>
      match s.tb.clock with
      | none => s.respond .tp 0x21#8 .clockUnset []
      | some c =>
        if correction.toInt < -maxTrim ∨ maxTrim < correction.toInt then s.respond .tp 0x21#8 .badField []
        else
          (s.takeTrim correction.toInt).respond .tp 0x21#8 .ok
            (s16 (appliedTrim c.millis correction.toInt) ++ u32 (s.takeTrim correction.toInt).currentInterval ++
              u32 (s.takeTrim correction.toInt).currentMillis)) := rfl

theorem takeTrim_of_clock {c : Clock} (set : s.tb.clock = some c) (d : Int) :
    s.takeTrim d =
      if 0 < d ∧ s.cfg.intervalLength * 60000 ≤ ((c.millis : Int) + d).toNat then
        s.boundary (((c.millis : Int) + d).toNat - s.cfg.intervalLength * 60000)
      else s.withTb { s.tb with clock := some { c with millis := ((c.millis : Int) + d).toNat } } := by
  have applied : ((c.millis : Int) + appliedTrim c.millis d).toNat = ((c.millis : Int) + d).toNat := by unfold appliedTrim; omega
  unfold State.takeTrim
  rw [set]
  dsimp only
  rw [applied]
  rfl

/-- A boundary taken within a request is the boundary of the state before the request's frame. -/
theorem takesBoundary_of_taken {c : Clock} {m : Nat} (h : (s.taken .tp).TakesBoundary t c m) (k : Byte) (r : Result) (l : List Byte) :
    s.TakesBoundary (t.respond .tp k r l) c m where
  clock := h.clock
  book := h.book
  grant := h.grant
  band := h.band
  ring := h.ring
  opened := h.opened
  record := by rw [port_respond]; exact h.record.trans (by rw [port_taken]; rfl)
  review := h.review
  frame := respond_frame_of (onlyChanges_trans (onlyChanges_mono (taken_frame s .tp) (by decide)) h.frame) (by decide) _ _ _

/-- Settles O37. -/
theorem clockTrimMovesTheMilliseconds : Obligations.ClockTrimMovesTheMilliseconds := by
  intro s correction free
  refine ⟨fun unset => onlyAnswers_of free exec_clockTrim (by rw [taken_tb, unset]), fun c set => ?_⟩
  have set' : (s.taken .tp).tb.clock = some c := set
  have taken (within : -2000 ≤ correction.toInt ∧ correction.toInt ≤ 2000) :
      exec (.clockTrim correction) s =
        .next (((s.taken .tp).takeTrim correction.toInt).respond .tp 0x21#8 .ok
          (s16 (appliedTrim c.millis correction.toInt) ++ u32 ((s.taken .tp).takeTrim correction.toInt).currentInterval ++
            u32 ((s.taken .tp).takeTrim correction.toInt).currentMillis)) := by
    rw [exec_taken free exec_clockTrim, set']
    exact congrArg Host.Outcome.next (if_neg (by unfold maxTrim; omega))
  have trims := takeTrim_of_clock set' correction.toInt
  refine ⟨fun out => onlyAnswers_of free exec_clockTrim ?_, fun low high short => ?_, fun high forward reached => ?_⟩
  · rw [set']
    exact if_pos out
  · have moved := trims.trans (if_neg (by rw [taken_cfg]; omega))
    have done := taken ⟨low, high⟩
    rw [moved] at done
    exact ⟨_, done, respond_frame_of (onlyChanges_trans (onlyChanges_mono (taken_frame s .tp) (by decide))
      (onlyChanges_mono (withTb_frame _ _) (by decide))) (by decide) _ _ _, rfl, repliedPlain_respond _ _ _ rfl⟩
  · have boundary := trims.trans (if_pos ⟨forward, by rw [taken_cfg]; omega⟩)
    have done := taken ⟨by omega, high⟩
    rw [boundary] at done
    have causes := boundary_causesOnly set' (((c.millis : Int) + correction.toInt).toNat - (s.taken .tp).cfg.intervalLength * 60000)
    have takes := boundary_takesBoundary set' (((c.millis : Int) + correction.toInt).toNat - (s.taken .tp).cfg.intervalLength * 60000)
    have tb := boundary_tb (s.taken .tp) (((c.millis : Int) + correction.toInt).toNat - (s.taken .tp).cfg.intervalLength * 60000)
    have rest : ((c.millis : Int) + correction.toInt).toNat - (s.taken .tp).cfg.intervalLength * 60000 =
        ((c.millis : Int) + correction.toInt - s.cfg.intervalLength * 60000).toNat := by rw [taken_cfg]; omega
    have applied : appliedTrim c.millis correction.toInt = correction.toInt := by unfold appliedTrim; omega
    rw [applied] at done
    rw [rest] at done causes takes tb
    generalize (s.taken .tp).boundary _ = v at done causes takes tb
    refine ⟨_, done, takesBoundary_of_taken takes _ _ _, tb, replied_respond _ _ _ ?_⟩
    unfold CausesOnly at causes
    rw [port_taken] at causes
    exact causes

end Sys2Proof.Proofs
end

section
/-! The requests on the book: SUBMIT's pre-checks and its hand-over (O38, O39) and WITHDRAW (O40). -/

namespace Sys2Proof.Proofs
open Sys2Proof Sys2Proof.Machine

variable {s t u : State}

/-! ### The field test (R46, R47) -/

theorem directionOfCode_iff (code : Byte) (d : Direction) :
    Direction.ofCode code = some d ↔
      (code = 1#8 ∧ d = .charge) ∨ (code = 2#8 ∧ d = .discharge) ∨ (code = 3#8 ∧ d = .idle) := by
  have is (n : Nat) (small : n < 256) : code = BitVec.ofNat 8 n ↔ code.toNat = n := by
    rw [← BitVec.toNat_inj, BitVec.toNat_ofNat, Nat.mod_eq_of_lt small]
  rw [is 1 (by decide), is 2 (by decide), is 3 (by decide)]
  unfold Direction.ofCode
  split
  · next one => rw [one]; simp [eq_comm]
  · next two => rw [two]; simp [eq_comm]
  · next three => rw [three]; simp [eq_comm]
  · next one two three =>
    refine ⟨nofun, ?_⟩
    rintro (⟨is, -⟩ | ⟨is, -⟩ | ⟨is, -⟩)
    · exact absurd is one
    · exact absurd is two
    · exact absurd is three

theorem ofFields_iff (f : BlockFields) (b : Terms) :
    Terms.ofFields f = some b ↔
      (b.reference = f.reference.toNat ∧ b.first = f.first.toNat ∧ b.length = f.length.toNat ∧ b.power = f.power.toNat ∧
        b.reserveUp = f.reserveUp.toNat ∧ b.reserveDown = f.reserveDown.toNat) ∧
      Direction.ofCode f.direction = some b.direction ∧ fieldsInRange b = true ∧ fieldsAgree b = true := by
  unfold Terms.ofFields
  cases named : Direction.ofCode f.direction with
  | none => exact ⟨nofun, fun h => nomatch h.2.1⟩
  | some d =>
    dsimp only
    constructor
    · intro passed
      split at passed
      · next good =>
        cases passed
        exact ⟨⟨rfl, rfl, rfl, rfl, rfl, rfl⟩, rfl, Bool.and_eq_true_iff.mp good⟩
      · cases passed
    · rintro ⟨⟨reference, first, length, power, up, down⟩, same, range, agree⟩
      have is : b = { reference := f.reference.toNat, first := f.first.toNat, length := f.length.toNat, direction := d
                      power := f.power.toNat, reserveUp := f.reserveUp.toNat, reserveDown := f.reserveDown.toNat } := by
        rw [← reference, ← first, ← length, ← power, ← up, ← down, Option.some.inj same]
      rw [← is, if_pos (Bool.and_eq_true_iff.mpr ⟨range, agree⟩)]

theorem fieldsInRange_iff (b : Terms) :
    fieldsInRange b = true ↔
      1 ≤ b.reference ∧ 1 ≤ b.first ∧ b.first ≤ 4000000000 ∧ 1 ≤ b.length ∧ b.length ≤ 96 ∧ b.first + b.length - 1 ≤ 4000000000 ∧
        b.power ≤ 400000 ∧ b.reserveUp ≤ 400000 ∧ b.reserveDown ≤ 400000 := by
  unfold fieldsInRange Terms.last lastInterval maxBlockPower
  simp only [Bool.and_eq_true, decide_eq_true_eq]
  omega

theorem fieldsAgree_iff (b : Terms) :
    fieldsAgree b = true ↔
      (b.direction = .charge ∧ 1 ≤ b.power ∧ b.reserveUp ≤ b.power) ∨
      (b.direction = .discharge ∧ 1 ≤ b.power ∧ b.reserveDown ≤ b.power) ∨
      (b.direction = .idle ∧ b.power = 0 ∧ b.reserveUp = 0 ∧ b.reserveDown = 0) := by
  unfold fieldsAgree
  cases b.direction <;> simp [and_assoc]

/-! ### The pre-checks (R54) -/

theorem exec_submit {f : BlockFields} :
    exec (.submit f) s = .next (s.takeFrame .tp fun s =>
      match s.preCheck f with
      | .error refusal => s.respond .tp 0x22#8 refusal []
      | .ok candidate =>
        match (s.handOver candidate).prj.checkMode with
        | .hold => s.handOver candidate
        | .notify => (s.handOver candidate).respond .tp 0x22#8 .started (u16 candidate.reference)) := rfl

theorem submit_refused {f : BlockFields} {r : Result} (free : s.free .tp) (refused : s.preCheck f = .error r) :
    s.onlyAnswers (.submit f) .tp 0x22#8 r [] := by
  refine onlyAnswers_of free exec_submit ?_
  have refused : (s.taken .tp).preCheck f = .error r := refused
  rw [refused]

section PreCheck
variable {f : BlockFields} (service : s.prof.mode = .service)
include service

theorem preCheck_of_unset (unset : s.tb.clock = none) : s.preCheck f = .error .clockUnset := by
  unfold State.preCheck
  rw [if_neg (not_not_intro service), if_pos unset]

theorem preCheck_of_unanchored (set : s.tb.clock ≠ none) (unanchored : s.inv.status = .unanchored) :
    s.preCheck f = .error .notAnchored := by
  unfold State.preCheck
  rw [if_neg (not_not_intro service), if_neg set, if_pos unanchored]

theorem preCheck_of_stale (set : s.tb.clock ≠ none) (anchored : s.inv.status ≠ .unanchored) (stale : s.inv.metering = .stale) :
    s.preCheck f = .error .stale := by
  unfold State.preCheck
  rw [if_neg (not_not_intro service), if_neg set, if_neg anchored, if_pos stale]

theorem preCheck_of_ready (set : s.tb.clock ≠ none) (anchored : s.inv.status ≠ .unanchored) (fresh : s.inv.metering = .fresh) :
    s.preCheck f =
      match Terms.ofFields f with
      | none => .error .badField
      | some b =>
        match s.candidateRefusal b with
        | some refusal => .error refusal
        | none => .ok b := by
  unfold State.preCheck
  rw [if_neg (not_not_intro service), if_neg set, if_neg anchored, if_neg (by rw [fresh]; decide)] <;> rfl

end PreCheck

theorem overlaps_iff (a b : Terms) :
    a.overlaps b = true ↔ a.first ≤ b.first + b.length - 1 ∧ b.first ≤ a.first + a.length - 1 := by
  unfold Terms.overlaps Terms.last; simp

theorem gate_of_clock {c : Clock} (set : s.tb.clock = some c) : s.gate = c.interval + s.cfg.gateClosure := by
  unfold State.gate State.currentInterval; rw [set]; rfl

theorem currentInterval_of_clock {c : Clock} (set : s.tb.clock = some c) : s.currentInterval = c.interval := by
  unfold State.currentInterval; rw [set]; rfl

/-- The candidate's own pre-checks, as R54 words them from step 6 on. -/
theorem candidateRefusal_eq {c : Clock} (set : s.tb.clock = some c) (b : Terms)
    [Decidable (∃ x ∈ s.book.blocks, x.terms.overlaps b = true)]
    [Decidable ((∃ x ∈ s.book.blocks, x.terms.reference = b.reference) ∨ ∃ x, s.inFlight = some x ∧ x.reference = b.reference)] :
    s.candidateRefusal b =
      if b.first < c.interval + s.cfg.gateClosure then some .gateClosed
      else if c.interval + 191 < b.last then some .horizon
      else if ∃ x ∈ s.book.blocks, x.terms.overlaps b = true then some .overlap
      else if (∃ x ∈ s.book.blocks, x.terms.reference = b.reference) ∨ ∃ x, s.inFlight = some x ∧ x.reference = b.reference then
        some .duplicateRef
      else if 64 ≤ s.book.blocks.length then some .bookFull
      else if s.inFlight.isSome then some .busy
      else none := by
  have overlap : (s.book.blocks.any fun x => x.terms.overlaps b) = true ↔ ∃ x ∈ s.book.blocks, x.terms.overlaps b = true :=
    List.any_eq_true
  have duplicate : ((s.book.blocks.any fun x => decide (x.terms.reference = b.reference)) ||
      decide (s.inFlight.map Terms.reference = some b.reference)) = true ↔
      (∃ x ∈ s.book.blocks, x.terms.reference = b.reference) ∨ ∃ x, s.inFlight = some x ∧ x.reference = b.reference := by
    rw [Bool.or_eq_true, List.any_eq_true, decide_eq_true_eq, Option.map_eq_some_iff]
    simp only [decide_eq_true_eq]
  unfold State.candidateRefusal horizonLength maxBlocks
  rw [gate_of_clock set, currentInterval_of_clock set]
  exact if_congr Iff.rfl rfl (if_congr Iff.rfl rfl (if_congr overlap rfl (if_congr duplicate rfl rfl)))

/-- Settles O38. -/
theorem submitIsPreChecked : Obligations.SubmitIsPreChecked := by
  refine ⟨fun f b => ?_, fun s f free => ⟨fun mode => submit_refused free (if_pos mode), fun service =>
    ⟨fun unset => submit_refused free (preCheck_of_unset service unset), fun c set => ?_⟩⟩⟩
  · rw [ofFields_iff, directionOfCode_iff, fieldsInRange_iff, fieldsAgree_iff]
    constructor
    · rintro ⟨⟨reference, first, length, power, up, down⟩, code, ⟨r1, r2, r3, r4, r5, r6, r7, r8, r9⟩, agree⟩
      refine ⟨reference, first, length, power, up, down, r1, r2, r3, r4, r5, r6, r7, r8, r9, ?_⟩
      rcases code with ⟨code, direction⟩ | ⟨code, direction⟩ | ⟨code, direction⟩ <;> simp_all
    · rintro ⟨reference, first, length, power, up, down, r1, r2, r3, r4, r5, r6, r7, r8, r9, agree⟩
      refine ⟨⟨reference, first, length, power, up, down⟩, ?_, ⟨r1, r2, r3, r4, r5, r6, r7, r8, r9⟩, ?_⟩
      · exact agree.imp (fun h => ⟨h.1, h.2.1⟩) (Or.imp (fun h => ⟨h.1, h.2.1⟩) fun h => ⟨h.1, h.2.1⟩)
      · exact agree.imp (fun h => h.2) (Or.imp (fun h => h.2) fun h => h.2)
  · have isSet : s.tb.clock ≠ none := by rw [set]; nofun
    refine ⟨fun unanchored => submit_refused free (preCheck_of_unanchored service isSet unanchored),
      fun anchored stale => submit_refused free (preCheck_of_stale service isSet anchored stale), fun anchored fresh => ?_⟩
    have ready := preCheck_of_ready (f := f) service isSet anchored fresh
    refine ⟨fun bad => submit_refused free (by rw [ready, bad]), fun b good => ?_⟩
    classical
    have refusal := candidateRefusal_eq set b
    have overlap : (∃ x ∈ s.book.blocks, x.terms.overlaps b = true) ↔ ∃ x ∈ s.book.blocks,
        x.terms.first ≤ b.first + b.length - 1 ∧ b.first ≤ x.terms.first + x.terms.length - 1 :=
      exists_congr fun x => and_congr_right fun _ => overlaps_iff x.terms b
    have refuses {r : Result} (refused : s.candidateRefusal b = some r) : s.onlyAnswers (.submit f) .tp 0x22#8 r [] :=
      submit_refused free (by rw [ready, good]; dsimp only; rw [refused])
    dsimp only
    rw [← overlap]
    refine ⟨fun early => refuses (by rw [refusal, if_pos early]), fun gate => ?_⟩
    rw [if_neg (Nat.not_lt.mpr gate)] at refusal
    refine ⟨fun far => refuses (by rw [refusal]; exact if_pos far), fun near => ?_⟩
    rw [if_neg (Nat.not_lt.mpr near : ¬ c.interval + 191 < b.last)] at refusal
    refine ⟨fun overlaps => refuses (by rw [refusal, if_pos overlaps]),
      fun apart duplicate => refuses (by rw [refusal, if_neg apart, if_pos duplicate]),
      fun apart unique full => refuses (by rw [refusal, if_neg apart, if_neg unique, if_pos full]),
      fun apart unique room busy => refuses ?_⟩
    rw [refusal, if_neg apart, if_neg unique, if_neg room, if_pos (Option.isSome_iff_ne_none.mpr busy)]

/-! ### The hand-over (R55, R69) -/

/-- The engine once a candidate has been handed over with no check in flight (R69). -/
def handedEngine (s : State) (b : Terms) (c : Clock) : Engine :=
  match s.prj.running with
  | none => { s.prj with running := some (.check b (s.snapshot c)), waiting := none }
  | some _ => { s.prj with waiting := some b }

theorem handOver_of_clock {c : Clock} (set : s.tb.clock = some c) (b : Terms) : s.handOver b = s.withPrj (handedEngine s b c) := by
  unfold State.handOver handedEngine
  cases running : s.prj.running with
  | none => exact (if_pos rfl).trans (startCheck_of_clock set b)
  | some job => exact if_neg nofun

theorem handedEngine_checkMode (s : State) (b : Terms) (c : Clock) : (handedEngine s b c).checkMode = s.prj.checkMode := by
  unfold handedEngine; split <;> rfl

theorem handedEngine_inFlight {c : Clock} (noCheck : s.inFlight = none) (b : Terms) :
    (s.withPrj (handedEngine s b c)).inFlight = some b := by
  unfold handedEngine
  cases running : s.prj.running with
  | none => exact inFlight_of_check (c := b) rfl
  | some job =>
    cases job with
    | review snap => exact inFlight_of_review (s := s.withPrj { s.prj with waiting := some b }) running
    | check candidate snap => rw [inFlight_of_check running] at noCheck; cases noCheck

/-- Settles O39. -/
theorem submitIsHandedOver : Obligations.SubmitIsHandedOver := by
  intro s f b c free service set anchored fresh good gate horizon fits room noCheck
  have isSet : s.tb.clock ≠ none := by rw [set]; nofun
  classical
  have accepted : s.candidateRefusal b = none := by
    rw [candidateRefusal_eq set, if_neg (Nat.not_lt.mpr gate), if_neg (Nat.not_lt.mpr horizon), if_neg, if_neg, if_neg (Nat.not_le.mpr room),
      if_neg (by rw [noCheck]; nofun)]
    · rintro (⟨x, hx, same⟩ | ⟨x, running, -⟩)
      · exact (fits x hx).2 same
      · rw [noCheck] at running; cases running
    · rintro ⟨x, hx, overlaps⟩
      rw [(fits x hx).1] at overlaps; cases overlaps
  have passed : (s.taken .tp).preCheck f = .ok b := by
    have ready : s.preCheck f = .ok b := by
      rw [preCheck_of_ready service isSet anchored fresh, good]
      dsimp only
      rw [accepted]
    exact ready
  have flight : ((s.taken .tp).withPrj (handedEngine (s.taken .tp) b c)).inFlight = some b :=
    handedEngine_inFlight (s := s.taken .tp) noCheck b
  have mode : (handedEngine (s.taken .tp) b c).checkMode = s.prj.checkMode := handedEngine_checkMode _ b c
  have frame : s.onlyChanges ((s.taken .tp).withPrj (handedEngine (s.taken .tp) b c)) [.prj, .tp] :=
    onlyChanges_trans (onlyChanges_mono (taken_frame s .tp) (by decide)) (onlyChanges_mono (withPrj_frame _ _) (by decide))
  have done := exec_taken free (exec_submit (f := f))
  rw [passed] at done
  dsimp only at done
  rw [handOver_of_clock (s := s.taken .tp) set, State.withPrj_prj, mode] at done
  cases inMode : s.prj.checkMode with
  | hold =>
    rw [inMode] at done
    exact ⟨_, done, frame, flight, rfl, nofun, fun _ => port_taken s .tp⟩
  | notify =>
    rw [inMode] at done
    exact ⟨_, done, respond_frame_of frame (by decide) _ _ _, flight, rfl, fun _ => repliedPlain_respond _ _ _ rfl, nofun⟩

/-! ### WITHDRAW (R57, R58) -/

theorem exec_withdraw {reference : Half} :
    exec (.withdraw reference) s = .next (s.takeFrame .tp fun s =>
      match s.blockOf reference.toNat with
      | none => s.respond .tp 0x23#8 .notFound []
      | some b =>
        if s.inFlight.isSome then s.respond .tp 0x23#8 .busy []
        else if b.terms.first < s.gate then s.respond .tp 0x23#8 .gateClosed []
        else
          (s.removeBlock reference.toNat).respond .tp 0x23#8 .ok
            (b.terms.bytes ++ yesNo b.atRisk ++ yesNo (b.terms.covers s.currentInterval))) := rfl

/-- In a book in order a reference names one block (R48). -/
theorem reference_unique {l : List Block} (ordered : l.Pairwise Block.before) {a b : Block} (ha : a ∈ l) (hb : b ∈ l)
    (same : a.terms.reference = b.terms.reference) : a = b := by
  by_contra other
  have apart : l.Pairwise fun x y => x.terms.reference ≠ y.terms.reference := ordered.imp fun before => before.2
  have either : Std.Symm fun x y : Block => x.terms.reference ≠ y.terms.reference := ⟨fun _ _ ne => ne.symm⟩
  exact apart.forall ha hb other same

theorem blockOf_of_mem {b : Block} (ordered : s.book.blocks.Pairwise Block.before) (mem : b ∈ s.book.blocks) :
    s.blockOf b.terms.reference = some b := by
  unfold State.blockOf
  have isSome : (s.book.blocks.find? fun x => decide (x.terms.reference = b.terms.reference)).isSome = true :=
    List.find?_isSome.mpr ⟨b, mem, decide_eq_true rfl⟩
  obtain ⟨x, found⟩ := Option.isSome_iff_exists.mp isSome
  have same : decide (x.terms.reference = b.terms.reference) = true :=
    List.find?_some (p := fun x : Block => decide (x.terms.reference = b.terms.reference)) found
  rw [found, reference_unique ordered (List.mem_of_find?_eq_some found) mem (of_decide_eq_true same)]

/-- Taking the block of a reference from a book in order takes every block of that reference. -/
theorem eraseP_reference {l : List Block} (ordered : l.Pairwise Block.before) (reference : Nat) :
    l.eraseP (fun b => decide (b.terms.reference = reference)) = l.filter fun b => decide (b.terms.reference ≠ reference) := by
  induction l with
  | nil => rfl
  | cons x rest ih =>
    obtain ⟨first, ordered⟩ := List.pairwise_cons.mp ordered
    by_cases same : x.terms.reference = reference
    · rw [List.eraseP_cons_of_pos (by simp [same]), List.filter_cons_of_neg (by simp [same])]
      refine (List.filter_eq_self.mpr fun y hy => decide_eq_true ?_).symm
      exact fun too => (first y hy).2 (same.trans too.symm)
    · rw [List.eraseP_cons_of_neg (by simp [same]), List.filter_cons_of_pos (by simp [same]), ih ordered]

/-- Settles O40. -/
theorem withdrawRemovesTheBlock : Obligations.WithdrawRemovesTheBlock := by
  intro s reference free
  refine ⟨fun absent => onlyAnswers_of free exec_withdraw ?_, fun b mem named ordered => ?_⟩
  · have unnamed : (s.taken .tp).blockOf reference.toNat = none :=
      List.find?_eq_none.mpr fun x hx => by simpa using absent x hx
    rw [unnamed]
  · have found : (s.taken .tp).blockOf reference.toNat = some b := by
      rw [← named]; exact blockOf_of_mem (s := s.taken .tp) ordered mem
    refine ⟨fun busy => onlyAnswers_of free exec_withdraw ?_, fun noCheck early => onlyAnswers_of free exec_withdraw ?_,
      fun noCheck late => ?_⟩
    · rw [found]
      exact if_pos (Option.isSome_iff_ne_none.mpr busy)
    · rw [found]
      exact (if_neg (by rw [show (s.taken .tp).inFlight = none from noCheck]; nofun)).trans (if_pos early)
    · have done := exec_taken free (exec_withdraw (reference := reference))
      rw [found] at done
      dsimp only at done
      rw [if_neg (by rw [show (s.taken .tp).inFlight = none from noCheck]; nofun),
        if_neg (Nat.not_lt.mpr late : ¬ b.terms.first < (s.taken .tp).gate)] at done
      have g := requestReview_frame ((s.taken .tp).withBook
        { blocks := s.book.blocks.eraseP fun x => decide (x.terms.reference = reference.toNat), revision := s.book.revision + 1 })
      refine ⟨_, done, respond_frame_of (onlyChanges_trans (onlyChanges_mono (taken_frame s .tp) (by decide)) (onlyChanges_trans
        (onlyChanges_mono (withBook_frame _ _) (by decide)) (onlyChanges_mono g (by decide)))) (by decide) _ _ _, ?_, ?_,
        repliedPlain_respond _ _ _ (port_of_onlyChanges g .tp (by decide))⟩
      · refine (frame_book g).trans ?_
        rw [State.withBook_book, eraseP_reference ordered]
      · exact reviewRequested_requestReview (u := (s.taken .tp).withBook
          { blocks := s.book.blocks.eraseP fun x => decide (x.terms.reference = reference.toNat), revision := s.book.revision + 1 })
          rfl (respond_frame _ .tp _ _ _)

end Sys2Proof.Proofs
end

section
/-! BOOK READ, POSITION and RECORD READ (O42). -/

namespace Sys2Proof.Proofs
open Sys2Proof Sys2Proof.Machine

variable {s t u : State}

/-! ### BOOK READ (R59) -/

theorem exec_bookRead {n : Byte} :
    exec (.bookRead n) s = .next (s.takeFrame .tp fun s =>
      if 63 < n.toNat then s.respond .tp 0x26#8 .badField []
      else
        match s.book.blocks[n.toNat]? with
        | none => s.respond .tp 0x26#8 .endOfBook s.bookBytes
        | some b =>
          s.respond .tp 0x26#8 .ok
            (b.terms.bytes ++ yesNo b.atRisk ++ yesNo (s.tb.clock.isSome && b.terms.covers s.currentInterval) ++ s.bookBytes)) := rfl

/-! ### POSITION (R27, R28) -/

theorem exec_position : exec .position s = .next (s.takeFrame .tp fun s => s.respond .tp 0x27#8 .ok s.positionFields) := rfl

/-- The least of a list of terms, the first of equal ones (R27). -/
structure FirstLeast {α : Type} (terms : List (Nat × α)) (x : Nat × α) : Prop where
  place : ∃ before after, terms = before ++ x :: after ∧ ∀ y ∈ before, x.1 < y.1
  least : ∀ y ∈ terms, x.1 ≤ y.1

theorem leastTerm_firstLeast (best : Nat × PositionLimit) (rest : List (Nat × PositionLimit)) :
    FirstLeast (best :: rest) (leastTerm best rest) := by
  induction rest generalizing best with
  | nil => exact ⟨⟨[], [], rfl, nofun⟩, fun y hy => by cases List.mem_singleton.mp hy; exact Nat.le_refl _⟩
  | cons x rest ih =>
    by_cases less : x.1 < best.1
    · have next : leastTerm best (x :: rest) = leastTerm x rest := congrArg (leastTerm · rest) (if_pos less)
      rw [next]
      obtain ⟨⟨before, after, split, above⟩, least⟩ := ih x
      have below : (leastTerm x rest).1 < best.1 := Nat.lt_of_le_of_lt (least x (List.mem_cons_self ..)) less
      refine ⟨⟨best :: before, after, by rw [split]; rfl, fun y hy => ?_⟩, fun y hy => ?_⟩
      · rcases List.mem_cons.mp hy with rfl | hy
        · exact below
        · exact above y hy
      · rcases List.mem_cons.mp hy with rfl | hy
        · exact Nat.le_of_lt below
        · exact least y hy
    · have next : leastTerm best (x :: rest) = leastTerm best rest := congrArg (leastTerm · rest) (if_neg less)
      rw [next]
      obtain ⟨⟨before, after, split, above⟩, least⟩ := ih best
      generalize leastTerm best rest = found at split above least ⊢
      have first : found.1 ≤ best.1 := least best (List.mem_cons_self ..)
      refine ⟨?_, fun y hy => ?_⟩
      · cases before with
        | nil =>
          obtain ⟨same, tail⟩ := List.cons.inj split
          exact ⟨[], x :: rest, by rw [← same]; rfl, nofun⟩
        | cons b before =>
          obtain ⟨same, tail⟩ := List.cons.inj split
          have strict : found.1 < best.1 := by rw [same]; exact above b (List.mem_cons_self ..)
          refine ⟨best :: x :: before, after, by rw [tail]; rfl, fun y hy => ?_⟩
          rcases List.mem_cons.mp hy with rfl | hy
          · exact strict
          · rcases List.mem_cons.mp hy with rfl | hy
            · omega
            · exact above y (List.mem_cons_of_mem _ hy)
      · rcases List.mem_cons.mp hy with rfl | hy
        · exact first
        · rcases List.mem_cons.mp hy with rfl | hy
          · omega
          · exact least y (List.mem_cons_of_mem _ hy)

/-- The least term stays the least where its limit is shown by a code. -/
theorem firstLeast_map {α β : Type} (g : α → β) {terms : List (Nat × α)} {x : Nat × α} (h : FirstLeast terms x) :
    FirstLeast (terms.map fun y => (y.1, g y.2)) (x.1, g x.2) := by
  obtain ⟨⟨before, after, split, above⟩, least⟩ := h
  refine ⟨⟨before.map fun y => (y.1, g y.2), after.map fun y => (y.1, g y.2), by rw [split, List.map_append, List.map_cons], ?_⟩, ?_⟩
  · intro y hy
    obtain ⟨z, hz, rfl⟩ := List.mem_map.mp hy
    exact above z hz
  · intro y hy
    obtain ⟨z, hz, rfl⟩ := List.mem_map.mp hy
    exact least z hz

/-- The heat terms with their limits' codes, tier by tier (R27, R28). -/
theorem heatTerms_codes (q h : Tier → Nat) (air : Nat) :
    (heatTerms q h air).map (fun x => (x.1, x.2.code)) =
      ([(Tier.t1, 2), (Tier.t2, 3), (Tier.t3, 4)].filter fun k => decide (0 < q k.1)).map fun k =>
        (h k.1 * 1000 / q k.1 * 1000 / air, k.2) := by
  have tier (k : Tier) (code : Nat) (is : (PositionLimit.ofTier k).code = code) (rest : List Tier) (codes : List (Tier × Nat))
      (tail : (rest.filterMap fun k => if 0 < q k then some (h k * 1000 / q k * 1000 / air, PositionLimit.ofTier k) else none).map
        (fun x => (x.1, x.2.code)) = (codes.filter fun k => decide (0 < q k.1)).map fun k => (h k.1 * 1000 / q k.1 * 1000 / air, k.2)) :
      ((k :: rest).filterMap fun k => if 0 < q k then some (h k * 1000 / q k * 1000 / air, PositionLimit.ofTier k) else none).map
        (fun x => (x.1, x.2.code)) =
      (((k, code) :: codes).filter fun k => decide (0 < q k.1)).map fun k => (h k.1 * 1000 / q k.1 * 1000 / air, k.2) := by
    by_cases given : 0 < q k
    · rw [List.filterMap_cons_some (by rw [if_pos given]), List.filter_cons_of_pos (by simp [given]), List.map_cons, List.map_cons, tail, is]
    · rw [List.filterMap_cons_none (by rw [if_neg given]), List.filter_cons_of_neg (by simp [given]), tail]
  exact tier .t1 2 rfl _ _ (tier .t2 3 rfl _ _ (tier .t3 4 rfl _ _ rfl))

/-- The discharge position with its limit's code (R27). -/
theorem dischargePosition_least (c : Settings) (g mass : Nat) (heat : PerTier Nat) :
    FirstLeast
      ((((mass : Int) - c.massFloor - (g * c.massMargin : Nat)).toNat * 1000 / c.airDischarge, 1) ::
        ([(Tier.t1, 2), (Tier.t2, 3), (Tier.t3, 4)].filter fun k => decide (0 < (c.tiers.get k.1).qDischarge)).map fun k =>
          (heat.get k.1 * 1000 / (c.tiers.get k.1).qDischarge * 1000 / c.airDischarge, k.2))
      ((dischargePosition c g mass heat).1, (dischargePosition c g mass heat).2.code) := by
  have terms := firstLeast_map PositionLimit.code (leastTerm_firstLeast
    ((mass - c.massFloor - g * c.massMargin) * 1000 / c.airDischarge, .air)
    (heatTerms (fun k => (c.tiers.get k).qDischarge) (fun k => heat.get k) c.airDischarge))
  rw [List.map_cons, heatTerms_codes] at terms
  have air : ((mass : Int) - c.massFloor - (g * c.massMargin : Nat)).toNat = mass - c.massFloor - g * c.massMargin := by omega
  rw [air]
  exact terms

/-- The charge position with its limit's code (R28). -/
theorem chargePosition_least (c : Settings) (g mass : Nat) (heat : PerTier Nat) :
    FirstLeast
      ((((c.massCeil : Int) - (g * c.massMargin : Nat) - mass).toNat * 1000 / c.airCharge, 1) ::
        ([(Tier.t1, 2), (Tier.t2, 3), (Tier.t3, 4)].filter fun k => decide (0 < (c.tiers.get k.1).qCharge)).map fun k =>
          (((c.tiers.get k.1).capacity - heat.get k.1) * 1000 / (c.tiers.get k.1).qCharge * 1000 / c.airCharge, k.2))
      ((chargePosition c g mass heat).1, (chargePosition c g mass heat).2.code) := by
  have terms := firstLeast_map PositionLimit.code (leastTerm_firstLeast
    ((c.massCeil - g * c.massMargin - mass) * 1000 / c.airCharge, .air)
    (heatTerms (fun k => (c.tiers.get k).qCharge) (fun k => (c.tiers.get k).capacity - heat.get k) c.airCharge))
  rw [List.map_cons, heatTerms_codes] at terms
  have air : ((c.massCeil : Int) - (g * c.massMargin : Nat) - mass).toNat = c.massCeil - g * c.massMargin - mass := by omega
  rw [air]
  exact terms

theorem positionFields_of_anchored (anchored : s.inv.status ≠ .unanchored) :
    s.positionFields =
      u32 (dischargePosition s.cfg s.inv.status.margin s.inv.mass s.inv.heat).1 ++
        u8 (dischargePosition s.cfg s.inv.status.margin s.inv.mass s.inv.heat).2.code ++
        u32 (chargePosition s.cfg s.inv.status.margin s.inv.mass s.inv.heat).1 ++
        u8 (chargePosition s.cfg s.inv.status.margin s.inv.mass s.inv.heat).2.code ++
        u8 s.inv.status.margin ++ u32 s.inv.mass ++ u32 s.inv.heat.t1 ++ u32 s.inv.heat.t2 ++ u32 s.inv.heat.t3 := by
  have positions : s.positions = (dischargePosition s.cfg s.inv.status.margin s.inv.mass s.inv.heat,
      chargePosition s.cfg s.inv.status.margin s.inv.mass s.inv.heat) := if_pos ((anchored_iff _).mpr anchored)
  unfold State.positionFields
  rw [positions]

theorem positionFields_of_unanchored (unanchored : s.inv.status = .unanchored) :
    s.positionFields =
      u32 0 ++ u8 0 ++ u32 0 ++ u8 0 ++ u8 0 ++ u32 s.inv.mass ++ u32 s.inv.heat.t1 ++ u32 s.inv.heat.t2 ++ u32 s.inv.heat.t3 := by
  have positions : s.positions = ((0, .none), (0, .none)) := if_neg (by rw [unanchored]; decide)
  unfold State.positionFields
  rw [positions, unanchored]
  rfl

/-! ### RECORD READ (R147, R153) -/

theorem exec_recordRead {i : Word} :
    exec (.recordRead i) s = .next (s.takeFrame .tp fun s =>
      if i.toNat = 0 ∨ lastInterval < i.toNat then s.respond .tp 0x28#8 .badField []
      else
        match s.slog.ring.find? fun r => decide (r.opened.interval = i.toNat) with
        | none => s.respond .tp 0x28#8 .notFound s.ringBytes
        | some r => s.respond .tp 0x28#8 .ok (r.bytes ++ s.ringBytes)) := rfl

theorem orZero_two (o : Option Nat) : orZero 2 o = u16 (o.getD 0) := by cases o <;> rfl

theorem orAbsent_four (o : Option Nat) : orAbsent 4 o = u32 (o.getD 4294967295) := by
  cases o with
  | none => decide
  | some n => rfl

theorem toNat_mul_eq (b : Bool) (weight : Nat) : b.toNat * weight = if b then weight else 0 := by cases b <;> simp

theorem recordBytes_eq (r : ClosedRecord) :
    let q := r.opened
    let bit := fun (set : Bool) (weight : Nat) => if set then weight else 0
    r.bytes =
      u32 q.interval ++ u16 (q.reference.getD 0) ++ u32 (q.startMass.getD 4294967295) ++ u32 q.startEpoch.toNat ++
        s64 q.scheduled ++ s64 q.delivered ++ s64 q.reserveUp ++ s64 q.reserveDown ++ u16 q.ticks ++
        u8 (bit q.flags.atRisk 1 + bit q.flags.derated 2 + bit q.flags.minLoad 4 + bit q.flags.stale 8 + bit q.flags.gridLost 16 +
          bit q.flags.clamped 32 + bit q.flags.discontinuity 64 + bit q.flags.isPartial 128) ++
        u32 (r.endMass.getD 4294967295) ++ u32 r.endEpoch.toNat ++ s32 r.scheduledKwh ++ s32 r.deliveredKwh ++
        s32 r.reserveUpKwh ++ s32 r.reserveDownKwh := by
  dsimp only
  unfold ClosedRecord.bytes RecordFlags.byte
  rw [orZero_two, orAbsent_four, orAbsent_four]
  have one : r.opened.flags.atRisk.toNat = if r.opened.flags.atRisk then 1 else 0 := by cases r.opened.flags.atRisk <;> rfl
  simp only [toNat_mul_eq, one]

/-- In a ring of increasing intervals an interval names one record (R147). -/
theorem record_found {l : List ClosedRecord} (rises : l.Pairwise fun a b => a.opened.interval < b.opened.interval) {r : ClosedRecord}
    (mem : r ∈ l) : l.find? (fun x => decide (x.opened.interval = r.opened.interval)) = some r := by
  induction l with
  | nil => cases mem
  | cons x rest ih =>
    obtain ⟨first, rises⟩ := List.pairwise_cons.mp rises
    rcases List.mem_cons.mp mem with rfl | mem
    · exact List.find?_cons_of_pos (decide_eq_true rfl)
    · rw [List.find?_cons_of_neg (by have := first r mem; simp; omega)]
      exact ih rises mem

/-- Settles O42. -/
theorem readingRequestsShowTheTradeState : Obligations.ReadingRequestsShowTheTradeState := by
  intro s free
  dsimp only
  refine ⟨fun n over63 => onlyAnswers_of free exec_bookRead (if_pos over63), fun n within none => onlyAnswers_of free exec_bookRead ?_,
    fun n b within some => onlyAnswers_of free exec_bookRead ?_, fun unanchored => onlyAnswers_of free exec_position ?_,
    fun g status => ?_, fun i bad => onlyAnswers_of free exec_recordRead (if_pos bad),
    fun i low high absent => onlyAnswers_of free exec_recordRead ?_, fun i r low high mem is rises => onlyAnswers_of free exec_recordRead ?_⟩
  · rw [if_neg (Nat.not_lt.mpr within), taken_book, none]
    rfl
  · rw [if_neg (Nat.not_lt.mpr within), taken_book, some]
    simp only [State.bookBytes, List.append_assoc]
    rfl
  · rw [positionFields_of_unanchored (s := s.taken .tp) unanchored, unanchored]
    simp only [List.append_assoc, taken_inv]
  · have anchored : (s.taken .tp).inv.status ≠ .unanchored := by
      rw [taken_inv]; rcases status with ⟨status, -⟩ | ⟨status, -⟩ <;> rw [status] <;> decide
    have margin : s.inv.status.margin = g := by rcases status with ⟨status, rfl⟩ | ⟨status, rfl⟩ <;> rw [status] <;> rfl
    obtain ⟨⟨before, after, split, above⟩, least⟩ := dischargePosition_least s.cfg g s.inv.mass s.inv.heat
    obtain ⟨⟨before', after', split', above'⟩, least'⟩ := chargePosition_least s.cfg g s.inv.mass s.inv.heat
    refine ⟨_, _, ⟨before, after, split, above, least⟩, ⟨before', after', split', above', least'⟩, onlyAnswers_of free exec_position ?_⟩
    rw [positionFields_of_anchored anchored, taken_inv, taken_cfg, margin]
    rcases status with ⟨status, rfl⟩ | ⟨status, rfl⟩
    · rw [status]; simp only [List.append_assoc]
    · rw [status]; simp only [List.append_assoc]
  · have ok : ¬ (i.toNat = 0 ∨ lastInterval < i.toNat) := by unfold lastInterval; omega
    have none : s.slog.ring.find? (fun r => decide (r.opened.interval = i.toNat)) = none :=
      List.find?_eq_none.mpr fun r hr => by simpa using absent r hr
    rw [if_neg ok, taken_slog, none]
    rfl
  · have ok : ¬ (i.toNat = 0 ∨ lastInterval < i.toNat) := by unfold lastInterval; omega
    have found := record_found rises mem
    rw [is] at found
    rw [if_neg ok, taken_slog, found]
    dsimp only
    rw [recordBytes_eq]
    rfl

end Sys2Proof.Proofs
end

section
/-! The Projection Engine's requests and completions: the engine passed on, the marks and the report (O43 to O45). -/

namespace Sys2Proof.Proofs
open Sys2Proof Sys2Proof.Machine

variable {s t u : State}

/-! ### The engine passed on (R71) -/

/-- A pending review that can start as soon as no job runs (R68, R70). -/
def reviewAwaits (s : State) : Prop := s.prj.pendingReview = true ∧ s.inv.status ≠ .unanchored ∧ s.tb.clock ≠ none

theorem canReview_idle (s : State) : (s.withPrj { s.prj with running := none }).canReview = true ↔ s.inv.status ≠ .unanchored ∧ s.tb.clock ≠ none := by
  rw [canReview_eq, State.withPrj_prj, State.withPrj_inv, State.withPrj_tb, Option.isNone_none, Bool.true_and, Bool.and_eq_true,
    anchored_iff, Option.isSome_iff_ne_none]

theorem passOn_of_review {c : Clock} (awaits : reviewAwaits s) (set : s.tb.clock = some c) :
    s.passOn = s.withPrj { s.prj with running := some (.review (s.snapshot c)), pendingReview := false } := by
  have can := (canReview_idle s).mpr awaits.2
  unfold State.passOn
  exact (if_pos (Bool.and_eq_true_iff.mpr ⟨awaits.1, can⟩)).trans (startReview_of_clock (s := s.withPrj { s.prj with running := none }) set)

theorem passOn_of_no_review (not : ¬ reviewAwaits s) :
    s.passOn =
      match s.prj.waiting with
      | some candidate => (s.withPrj { s.prj with running := none }).startCheck candidate
      | none => s.withPrj { s.prj with running := none } := by
  have cannot : ¬ ((s.withPrj { s.prj with running := none }).prj.pendingReview &&
      (s.withPrj { s.prj with running := none }).canReview) = true := fun both => by
    obtain ⟨pending, can⟩ := Bool.and_eq_true_iff.mp both
    exact not ⟨pending, (canReview_idle s).mp can⟩
  unfold State.passOn
  exact (if_neg cannot).trans rfl

theorem passOn_of_idle (not : ¬ reviewAwaits s) (waits : s.prj.waiting = none) : s.passOn = s.withPrj { s.prj with running := none } := by
  rw [passOn_of_no_review not, waits]

theorem passOn_of_check {b : Terms} {c : Clock} (not : ¬ reviewAwaits s) (waits : s.prj.waiting = some b) (set : s.tb.clock = some c) :
    s.passOn = s.withPrj { s.prj with running := some (.check b (s.snapshot c)), waiting := none } := by
  rw [passOn_of_no_review not, waits]
  exact startCheck_of_clock (s := s.withPrj { s.prj with running := none }) set b

theorem passOn_of_unset {b : Terms} (not : ¬ reviewAwaits s) (waits : s.prj.waiting = some b) (unset : s.tb.clock = none) :
    s.passOn = (s.withPrj { s.prj with running := none, waiting := none }).reportEnd b
      (if s.prof.mode = .service then .gateClosed else .wrongMode) none := by
  rw [passOn_of_no_review not, waits]
  exact startCheck_of_unset (s := s.withPrj { s.prj with running := none }) unset b

/-- Where no check waits the engine passes to the review that awaits it, or is idle. -/
theorem passOn_of_none (waits : s.prj.waiting = none) :
    s.onlyChanges s.passOn [.prj] ∧ s.passOn.inFlight = none ∧
      (∀ c, s.prj.pendingReview = true → s.inv.status ≠ .unanchored → s.tb.clock = some c →
        s.passOn.prj = { s.prj with running := some (.review (s.snapshot c)), pendingReview := false }) ∧
      (s.prj.pendingReview = false ∨ s.inv.status = .unanchored ∨ s.tb.clock = none → s.passOn.prj = { s.prj with running := none }) := by
  by_cases awaits : reviewAwaits s
  · obtain ⟨c, set⟩ := Option.ne_none_iff_exists'.mp awaits.2.2
    rw [passOn_of_review awaits set]
    refine ⟨withPrj_frame s _, (inFlight_of_review (snap := s.snapshot c) rfl).trans waits, fun k _ _ same => ?_, fun cannot => ?_⟩
    · rw [set] at same; cases same; rfl
    · obtain ⟨pending, anchored, isSet⟩ := awaits
      rcases cannot with clear | unanchored | unset
      · rw [clear] at pending; cases pending
      · exact absurd unanchored anchored
      · exact absurd unset isSet
  · rw [passOn_of_idle awaits waits]
    refine ⟨withPrj_frame s _, waits, fun k pending anchored set => ?_, fun _ => rfl⟩
    exact absurd ⟨pending, anchored, by rw [set]; nofun⟩ awaits

/-! ### The report of a check's end (R79 to R81) -/

theorem reportEnd_of_hold (hold : s.prj.checkMode = .hold) (b : Terms) (r : Result) (f : Option Failure) :
    s.reportEnd b r f = s.respond .tp 0x22#8 r (reportFields b f s.book.revision) := by unfold State.reportEnd; rw [hold]

theorem reportEnd_of_notify (notify : s.prj.checkMode = .notify) (b : Terms) (r : Result) (f : Option Failure) :
    s.reportEnd b r f = (s.raise .tp .checkDone).notice r (reportFields b f s.book.revision) := by unfold State.reportEnd; rw [notify]

theorem reportEnd_tp_of_hold (hold : s.prj.checkMode = .hold) (b : Terms) (r : Result) (f : Option Failure) :
    (s.reportEnd b r f).port .tp =
      { s.port .tp with
        resetSeen := false
        output := (s.port .tp).output ++ [Frame.make 0xA2#8 (s.statusByte .tp :: r.code :: reportFields b f s.book.revision)] } := by
  rw [reportEnd_of_hold hold, port_respond]
  rfl

/-- A notice is built on the status that it leaves (R181). -/
theorem reportEnd_tp_of_notify (notify : s.prj.checkMode = .notify) (b : Terms) (r : Result) (f : Option Failure) :
    (s.reportEnd b r f).port .tp =
      { s.port .tp with
        causes := (s.port .tp).causes ||| Cause.mask .tp .checkDone
        output := (s.port .tp).output ++
          [Frame.make 0xC0#8 ((s.reportEnd b r f).statusByte .tp :: r.code :: reportFields b f s.book.revision)] } := by
  have after := reportEnd_of_notify notify b r f
  have port : (s.reportEnd b r f).port .tp =
      { s.port .tp with
        causes := (s.port .tp).causes ||| Cause.mask .tp .checkDone
        output := (s.port .tp).output ++
          [Frame.make 0xC0#8 ((s.raise .tp .checkDone).statusByte .tp :: r.code :: reportFields b f s.book.revision)] } := by
    rw [after]
    unfold State.notice
    rw [port_setPort, port_raise]
    rfl
  have status : (s.reportEnd b r f).statusByte .tp = (s.raise .tp .checkDone).statusByte .tp := by
    rw [after]
    refine statusByte_congr ?_ ?_ ?_ rfl rfl rfl <;> unfold State.notice <;> rw [port_setPort]
  rw [status]
  exact port

/-- The report of the end of a check on the trade port between `s` and `t`, with `raised` raised before it (R79 to R81). -/
theorem reported_tp {v : State} {b : Terms} {r : Result} {f : Option Failure} {raised : Byte}
    (port : v.port .tp = { s.port .tp with causes := (s.port .tp).causes ||| raised }) :
    (v.prj.checkMode = .hold →
      (v.reportEnd b r f).port .tp =
        { s.port .tp with
          causes := (s.port .tp).causes ||| raised, resetSeen := false
          output := (s.port .tp).output ++
            [Frame.make 0xA2#8 (s.shownStatus (v.reportEnd b r f) .tp :: r.code :: reportFields b f v.book.revision)] }) ∧
    (v.prj.checkMode = .notify →
      (v.reportEnd b r f).port .tp =
        { s.port .tp with
          causes := (s.port .tp).causes ||| raised ||| Cause.mask .tp .checkDone
          output := (s.port .tp).output ++
            [Frame.make 0xC0#8 ((v.reportEnd b r f).statusByte .tp :: r.code :: reportFields b f v.book.revision)] }) := by
  refine ⟨fun hold => ?_, fun notify => ?_⟩
  · have after := reportEnd_tp_of_hold hold b r f
    have f' := reportEnd_frame v b r f
    have status : s.shownStatus (v.reportEnd b r f) .tp = v.statusByte .tp :=
      shownStatus_eq v (by rw [port]) (by rw [after]) (by rw [after]) (frame_prj f') (by rw [frame_prof f']) (frame_inv f')
    rw [status, after, port]
  · rw [reportEnd_tp_of_notify notify, port]

theorem reportFields_eq (b : Terms) (f : Option Failure) (revision : BitVec 16) (status : Byte) (r : Result) :
    (status :: r.code :: (u16 b.reference ++ u8 ((f.map fun x => x.reason.code).getD 0) ++ u8 ((f.map Failure.tier).getD 0) ++
      u32 ((f.map Failure.interval).getD 0))) ++ u16 revision.toNat = status :: r.code :: reportFields b f revision := rfl

/-! ### The marks (R74, R75) -/

/-- A block is marked by a walk's failure that was not marked before (R75). -/
def newlyMarked (f : Option Failure) (blocks : List Block) : Prop :=
  ∃ b ∈ blocks, b.atRisk = false ∧ ∃ y, f = some y ∧ y.interval ≤ b.terms.last

theorem marksBlock_iff (f : Option Failure) (b : Terms) : marksBlock f b = true ↔ ∃ y, f = some y ∧ y.interval ≤ b.last := by
  unfold marksBlock
  cases f <;> simp

theorem anyMarked_iff (f : Option Failure) (blocks : List Block) :
    (blocks.any fun b => marksBlock f b.terms && !b.atRisk) = true ↔ newlyMarked f blocks := by
  unfold newlyMarked
  simp only [List.any_eq_true, Bool.and_eq_true, marksBlock_iff, Bool.not_eq_true']
  exact exists_congr fun b => and_congr_right fun _ => and_comm

theorem setMarks_port (s : State) (blocks : List Block) (inserted : Bool) (f : Option Failure) {p : Port} (holds : p = .pp ∨ p = .tp) :
    (newlyMarked f blocks → s.raisedOnly (s.setMarks blocks inserted f) p .atRisk) ∧
      (¬ newlyMarked f blocks → (s.setMarks blocks inserted f).port p = s.port p) := by
  unfold State.setMarks
  dsimp only
  by_cases newly : newlyMarked f blocks
  · refine ⟨fun _ => ?_, fun no => absurd newly no⟩
    unfold State.raisedOnly
    rw [if_pos ((anyMarked_iff f blocks).mpr newly)]
    rcases holds with rfl | rfl
    · rw [port_raise_ne _ _ _ _ (by decide), port_raise]; rfl
    · rw [port_raise, port_raise_ne _ _ _ _ (by decide)]; rfl
  · refine ⟨fun yes => absurd yes newly, fun _ => ?_⟩
    rw [if_neg fun any => newly ((anyMarked_iff f blocks).mp any)]
    rfl

/-! ### CHECK MODE and ABANDON (R82, R83) -/

theorem exec_checkMode {code : Byte} :
    exec (.checkMode code) s = .next (s.takeFrame .tp fun s =>
      match CheckMode.ofCode code with
      | none => s.respond .tp 0x25#8 .badField []
      | some m =>
        if s.inFlight.isSome then s.respond .tp 0x25#8 .busy []
        else (s.withPrj { s.prj with checkMode := m, defaultApplied := true }).respond .tp 0x25#8 .ok (u8 m.code)) := rfl

theorem exec_abandon :
    exec .abandon s = .next (s.takeFrame .tp fun s =>
      match s.inFlight, s.prj.checkMode with
      | some candidate, .notify =>
        (s.dropCheck.respond .tp 0x24#8 .ok (u16 candidate.reference)).reportEnd candidate .abandoned none
      | _, _ => s.respond .tp 0x24#8 .noCheck []) := rfl

theorem checkModeOfCode_iff (code : Byte) : CheckMode.ofCode code = none ↔ 1 < code.toNat := by
  unfold CheckMode.ofCode
  split <;> simp_all
  omega

/-- What ABANDON leaves of the engine (R71, R83). -/
theorem dropCheck_spec {b : Terms} (flight : s.inFlight = some b)
    (waits : s.prj.waiting = none ∨ ∃ snap, s.prj.running = some (.review snap)) :
    s.onlyChanges s.dropCheck [.prj] ∧ s.dropCheck.inFlight = none ∧ s.dropCheck.prj.checkMode = s.prj.checkMode ∧
      ((∃ snap, s.prj.running = some (.review snap)) → s.dropCheck.prj = { s.prj with waiting := none }) ∧
      ((∃ snap, s.prj.running = some (.check b snap)) →
        (∀ c, s.prj.pendingReview = true → s.inv.status ≠ .unanchored → s.tb.clock = some c →
          s.dropCheck.prj = { s.prj with running := some (.review (s.snapshot c)), pendingReview := false }) ∧
        (s.prj.pendingReview = false ∨ s.inv.status = .unanchored ∨ s.tb.clock = none →
          s.dropCheck.prj = { s.prj with running := none })) := by
  unfold State.dropCheck
  cases running : s.prj.running with
  | none =>
    have waiting : s.prj.waiting = some b := by unfold State.inFlight at flight; rw [running] at flight; exact flight
    rcases waits with none | ⟨snap, review⟩
    · rw [none] at waiting; cases waiting
    · rw [running] at review; cases review
  | some job =>
    cases job with
    | review snap =>
      exact ⟨withPrj_frame s _, inFlight_of_review (s := s.withPrj { s.prj with waiting := none }) running, rfl, fun _ => rfl,
        fun ⟨_, check⟩ => nomatch check⟩
    | check candidate snap =>
      have none : s.prj.waiting = none := waits.resolve_right fun ⟨_, review⟩ => by rw [running] at review; cases review
      obtain ⟨frame, flight, starts, stays⟩ := passOn_of_none none
      exact ⟨frame, flight, (passOn_of_no_wait none).2.1, fun ⟨_, review⟩ => (nomatch review), fun _ => ⟨starts, stays⟩⟩

/-- Settles O43. -/
theorem checkModeAndAbandonAreAnswered : Obligations.CheckModeAndAbandonAreAnswered := by
  intro s free
  refine ⟨fun code m named idle => ?_, fun code unnamed => onlyAnswers_of free exec_checkMode ?_,
    fun code named busy => onlyAnswers_of free exec_checkMode ?_, fun refused => onlyAnswers_of free exec_abandon ?_,
    fun b flight notify waits => ?_⟩
  · have idle : (s.taken .tp).inFlight = none := idle
    have done := exec_taken free (exec_checkMode (code := code))
    rw [named] at done
    dsimp only at done
    rw [if_neg (by rw [idle]; nofun)] at done
    have shown : u8 m.code = u8 (if m = .hold then 0 else 1) := by cases m <;> rfl
    rw [shown] at done
    exact ⟨_, done, respond_frame_of (onlyChanges_trans (onlyChanges_mono (taken_frame s .tp) (by decide))
      (onlyChanges_mono (withPrj_frame _ _) (by decide))) (by decide) _ _ _, rfl, repliedPlain_respond _ _ _ rfl⟩
  · rw [(checkModeOfCode_iff code).mpr unnamed]
  · obtain ⟨m, named⟩ := Option.ne_none_iff_exists'.mp fun none => Nat.not_lt.mpr named ((checkModeOfCode_iff code).mp none)
    rw [named]
    exact if_pos (Option.isSome_iff_ne_none.mpr busy)
  · have same : (s.taken .tp).inFlight = s.inFlight := rfl
    rw [same, taken_prj]
    rcases refused with idle | hold
    · rw [idle]
    · rw [hold]; cases s.inFlight <;> rfl
  · have drop := dropCheck_spec (s := s.taken .tp) flight waits
    obtain ⟨frame, ended, mode, review, check⟩ := drop
    have done := exec_taken free exec_abandon
    have flight' : (s.taken .tp).inFlight = some b := flight
    have notify' : (s.taken .tp).prj.checkMode = .notify := notify
    rw [flight', notify'] at done
    dsimp only at done
    rw [notify'] at mode
    have port := port_of_onlyChanges frame .tp (by decide)
    have whole := onlyChanges_trans (onlyChanges_mono (m := [.prj, .tp]) (taken_frame s .tp) (by decide)) (onlyChanges_mono frame (by decide))
    generalize (s.taken .tp).dropCheck = v at done frame ended mode review check port whole
    have reports := reportEnd_tp_of_notify (s := v.respond .tp 0x24#8 .ok (u16 b.reference)) mode b .abandoned none
    have f := reportEnd_frame (v.respond .tp 0x24#8 .ok (u16 b.reference)) b .abandoned none
    have prj : ((v.respond .tp 0x24#8 .ok (u16 b.reference)).reportEnd b .abandoned none).prj = v.prj :=
      frame_prj (s := v.respond .tp 0x24#8 .ok (u16 b.reference)) f
    rw [port_respond, port, port_taken] at reports
    have first (w : State) (h : w = (v.respond .tp 0x24#8 .ok (u16 b.reference)).reportEnd b .abandoned none) :
        (w.setPort .tp { w.port .tp with resetSeen := (s.port .tp).resetSeen, causes := (s.port .tp).causes }).statusByte .tp =
          v.statusByte .tp := by
      subst h
      refine statusByte_congr ?_ ?_ ?_ prj
        (congrArg Profile.mode (frame_prof (s := v.respond .tp 0x24#8 .ok (u16 b.reference))
          (t := (v.respond .tp 0x24#8 .ok (u16 b.reference)).reportEnd b .abandoned none) f))
        (frame_inv (s := v.respond .tp 0x24#8 .ok (u16 b.reference))
          (t := (v.respond .tp 0x24#8 .ok (u16 b.reference)).reportEnd b .abandoned none) f)
      · rw [port_setPort, port, port_taken]
      · rw [port_setPort, port, port_taken]
      · rw [port_setPort, reports, port, port_taken]
    refine ⟨_, done, onlyChanges_trans (respond_frame_of whole (by decide) _ _ _) (onlyChanges_mono f (by decide)), ?_,
      fun is => prj.trans (review is), fun is => ⟨fun c pending anchored set => prj.trans ((check is).1 c pending anchored set),
        fun cannot => prj.trans ((check is).2 cannot)⟩, ?_⟩
    · have same : ((v.respond .tp 0x24#8 .ok (u16 b.reference)).reportEnd b .abandoned none).inFlight = v.inFlight := by
        unfold State.inFlight; rw [prj]
      rw [same]; exact ended
    · rw [first _ rfl]
      have revision : (v.respond .tp 0x24#8 .ok (u16 b.reference)).book.revision = s.book.revision := congrArg Book.revision (frame_book (t := v) whole)
      rw [revision] at reports
      rw [List.append_assoc] at reports
      exact reports

/-! ### The end of a review (R76) -/

theorem exec_reviewCompletion_of_review {snap : Snapshot} (running : s.prj.running = some (.review snap)) :
    exec .reviewCompletion s = .next (s.setMarks s.book.blocks false (snap.walk none)).passOn := by
  show execReviewCompletion s = _
  unfold execReviewCompletion
  rw [running]

theorem exec_reviewCompletion_of_none (noReview : ∀ snap, s.prj.running ≠ some (.review snap)) : exec .reviewCompletion s = .next s := by
  show execReviewCompletion s = _
  unfold execReviewCompletion
  split
  · next snap running => exact absurd running (noReview snap)
  · rfl

theorem exec_checkCompletion_of_none (noCheck : ∀ b snap, s.prj.running ≠ some (.check b snap)) : exec .checkCompletion s = .next s := by
  show execCheckCompletion s = _
  unfold execCheckCompletion
  split
  · next b snap running => exact absurd running (noCheck b snap)
  · rfl

theorem raised_or_same {p : Port} {c : Cause} {raised : Prop} {risk : Byte} (yes : raised → s.raisedOnly t p c)
    (no : ¬ raised → t.port p = s.port p) (mask : raised → risk = c.mask p) (zero : ¬ raised → risk = 0#8) :
    t.port p = { s.port p with causes := (s.port p).causes ||| risk } := by
  by_cases is : raised
  · rw [mask is]; exact yes is
  · rw [zero is, no is, BitVec.or_zero]

theorem flagged_of_raised_or_same {p : Port} {c : Cause} {raised : Prop} (yes : raised → s.raisedOnly t p c)
    (no : ¬ raised → t.port p = s.port p) : s.flagged t p c raised := by
  by_cases is : raised
  · exact flagged_congr (flagged_of_raisedOnly (yes is)) (iff_of_true trivial is)
  · exact flagged_congr (flagged_of_causes (by rw [no is])) (iff_of_false id is)

theorem reportEnd_flagged_other {c : Cause} (other : Cause.checkDone ≠ c) (b : Terms) (r : Result) (f : Option Failure) :
    s.flagged (s.reportEnd b r f) .tp c False := by
  cases mode : s.prj.checkMode with
  | hold => exact flagged_of_causes (by rw [reportEnd_tp_of_hold mode])
  | notify =>
    have causes : ((s.reportEnd b r f).port .tp).causes = ((s.raise .tp .checkDone).port .tp).causes := by
      rw [reportEnd_tp_of_notify mode, port_raise]
    exact flagged_congr (flagged_trans (flagged_raise_other s .tp .tp other) (flagged_of_causes causes)) or_self_iff

/-- Settles O45: the marks first, then the four ways in which the engine is passed on. -/
theorem reviewCompletionMarksTheBook : Obligations.ReviewCompletionMarksTheBook := by
  refine fun s => ⟨exec_reviewCompletion_of_none, exec_checkCompletion_of_none, fun snap running => ?_⟩
  intro marked newly startsReview
  have marks : marked = markBook (snap.walk none) s.book.blocks := by
    simp only [marked]
    unfold markBook marksBlock
    cases snap.walk none <;> rfl
  have news : newly = newlyMarked (snap.walk none) s.book.blocks := rfl
  have starts : startsReview = (s.prj.pendingReview = true ∧ s.inv.status ≠ .unanchored ∧ s.tb.clock ≠ none) := rfl
  clear_value marked newly startsReview
  subst marks news starts
  have done := exec_reviewCompletion_of_review running
  have frame := setMarks_frame s s.book.blocks false (snap.walk none)
  have book := setMarks_book s s.book.blocks false (snap.walk none)
  obtain ⟨plantYes, plantNo⟩ := setMarks_port s s.book.blocks false (snap.walk none) (.inl rfl)
  obtain ⟨tradeYes, tradeNo⟩ := setMarks_port s s.book.blocks false (snap.walk none) (.inr rfl)
  generalize s.setMarks s.book.blocks false (snap.walk none) = v at done frame book plantYes plantNo tradeYes tradeNo
  generalize newlyMarked (snap.walk none) s.book.blocks = newly at plantYes plantNo tradeYes tradeNo ⊢
  have prj : v.prj = s.prj := frame_prj frame
  have inv : v.inv = s.inv := frame_inv frame
  have tb : v.tb = s.tb := frame_tb frame
  have g := passOn_frame v
  have bookAfter : v.passOn.book =
      { blocks := markBook (snap.walk none) s.book.blocks
        revision := if markBook (snap.walk none) s.book.blocks = s.book.blocks then s.book.revision else s.book.revision + 1 } := by
    rw [frame_book g, book, Bool.false_or]
    by_cases same : markBook (snap.walk none) s.book.blocks = s.book.blocks
    · rw [if_pos same, if_neg (by simp [same])]
    · rw [if_neg same, if_pos (by simp [same])]
  have plant : v.passOn.port .pp = v.port .pp := port_of_onlyChanges g .pp (by decide)
  have awaits : reviewAwaits v ↔ s.prj.pendingReview = true ∧ s.inv.status ≠ .unanchored ∧ s.tb.clock ≠ none := by
    unfold reviewAwaits; rw [prj, inv, tb]
  have snapshot (c : Clock) : v.passOn.snapshot c = v.snapshot c :=
    snapshot_congr (frame_inv g) (frame_trc g) (frame_book g) (frame_settings g) c
  have tradeFlag := flagged_of_raised_or_same tradeYes tradeNo
  -- the trade port is untouched by the passing on, unless a waiting check finds the clock UNSET
  have trade (ends : reviewAwaits v ∨ s.prj.waiting = none ∨ s.tb.clock ≠ none) : v.passOn.port .tp = v.port .tp := by
    by_cases review : reviewAwaits v
    · obtain ⟨c, set⟩ := Option.ne_none_iff_exists'.mp review.2.2
      rw [passOn_of_review review set]; rfl
    · cases waits : v.prj.waiting with
      | none => rw [passOn_of_idle review waits]; rfl
      | some b =>
        have set := (ends.resolve_left review).resolve_left (by rw [← prj, waits]; nofun)
        obtain ⟨c, set⟩ := Option.ne_none_iff_exists'.mp set
        rw [passOn_of_check review waits (by rw [tb]; exact set)]; rfl
  refine ⟨_, done, onlyChanges_trans (onlyChanges_mono frame (by decide)) (onlyChanges_mono g (by decide)), bookAfter,
    fun is => by unfold State.raisedOnly; rw [plant]; exact plantYes is, fun no => plant.trans (plantNo no), ?_, fun ends => ?_,
    fun c starts set => ?_, fun not waits => ?_, fun b c not waits set => ?_, fun b not waits unset => ?_⟩
  · by_cases ends : reviewAwaits v ∨ s.prj.waiting = none ∨ s.tb.clock ≠ none
    · exact flagged_congr (flagged_trans tradeFlag (flagged_of_causes (by rw [trade ends]))) (by rw [or_false])
    · rw [not_or, not_or] at ends
      obtain ⟨review, waits, unset⟩ := ends
      obtain ⟨b, waits⟩ := Option.ne_none_iff_exists'.mp waits
      rw [passOn_of_unset review (prj ▸ waits) (tb ▸ not_not.mp unset)]
      refine flagged_congr (flagged_trans tradeFlag (flagged_trans ?_ (reportEnd_flagged_other (by decide) _ _ _)))
        (by rw [or_self_iff, or_false])
      exact flagged_of_causes rfl
  · have same := trade (ends.imp awaits.mpr id)
    exact ⟨fun is => by unfold State.raisedOnly; rw [same]; exact tradeYes is, fun no => same.trans (tradeNo no)⟩
  · rw [snapshot, passOn_of_review (awaits.mpr starts) (by rw [tb]; exact set), State.withPrj_prj, prj]
  · rw [passOn_of_idle (fun is => not (awaits.mp is)) (by rw [prj]; exact waits), State.withPrj_prj, prj]
  · rw [snapshot, passOn_of_check (fun is => not (awaits.mp is)) (by rw [prj]; exact waits) (by rw [tb]; exact set), State.withPrj_prj, prj]
  · have ends := passOn_of_unset (fun is => not (awaits.mp is)) (b := b) (by rw [prj]; exact waits) (by rw [tb]; exact unset)
    have revision : v.passOn.book.revision = v.book.revision := congrArg Book.revision (frame_book g)
    rw [frame_prof frame] at ends
    generalize hr : (if s.prof.mode = .service then Result.gateClosed else Result.wrongMode) = r at ends
    refine ⟨?_, fun risk mask zero => ?_⟩
    · rw [ends, frame_prj (reportEnd_frame _ _ _ _), State.withPrj_prj, prj]
    · have port : (v.withPrj { v.prj with running := none, waiting := none }).port .tp =
          { s.port .tp with causes := (s.port .tp).causes ||| risk } := raised_or_same tradeYes tradeNo mask zero
      have tp := reported_tp (b := b) (r := r) (f := none) port
      rw [← ends] at tp
      rw [revision]
      exact ⟨fun hold => tp.1 (by rw [State.withPrj_prj, prj]; exact hold), fun notify => tp.2 (by rw [State.withPrj_prj, prj]; exact notify)⟩

end Sys2Proof.Proofs
end

section
/-! The end of an admission check (O44). -/

namespace Sys2Proof.Proofs
open Sys2Proof Sys2Proof.Machine

variable {s t u : State}

theorem exec_checkCompletion_of_check {b : Terms} {snap : Snapshot} (running : s.prj.running = some (.check b snap)) :
    exec .checkCompletion s = .next (s.completeCheck b snap) := by
  show execCheckCompletion s = _
  unfold execCheckCompletion
  rw [running]

theorem insertBlock_perm (b : Block) (l : List Block) : (insertBlock b l).Perm (b :: l) := by
  induction l with
  | nil => exact .refl _
  | cons x l ih =>
    unfold insertBlock
    split
    · exact .refl _
    · exact (ih.cons x).trans (.swap b x l)

theorem reportedFailure_eq (r : Result) (f : Option Failure) : reportedFailure r f = if r = .accepted ∨ r = .refused then f else none := by
  cases r <;> rfl

theorem covers_iff (b : Terms) (j : Nat) : b.covers j = true ↔ b.first ≤ j ∧ j ≤ b.last := by
  unfold Terms.covers; rw [Bool.and_eq_true, decide_eq_true_iff, decide_eq_true_iff]

/-- An inserted block stands unmarked until the walk marks it (R74, R75). -/
theorem newlyMarked_insertBlock (f : Option Failure) (b : Terms) (blocks : List Block) :
    newlyMarked f (insertBlock { terms := b, atRisk := false } blocks) ↔
      ∃ y, f = some y ∧ (y.interval ≤ b.last ∨ ∃ x ∈ blocks, x.atRisk = false ∧ y.interval ≤ x.terms.last) := by
  unfold newlyMarked
  constructor
  · rintro ⟨x, mem, clear, y, fails, le⟩
    refine ⟨y, fails, ?_⟩
    rcases mem_insertBlock.mp mem with rfl | mem
    · exact .inl le
    · exact .inr ⟨x, mem, clear, le⟩
  · rintro ⟨y, fails, le | ⟨x, mem, clear, le⟩⟩
    · exact ⟨_, mem_insertBlock.mpr (.inl rfl), rfl, y, fails, le⟩
    · exact ⟨x, mem_insertBlock.mpr (.inr mem), clear, y, fails, le⟩

/-- The book after an ACCEPTED check (R51, R74). -/
theorem acceptBlock_book {b : Terms} {f : Option Failure} (safe : s.BookSafe) (fits : Fits s.book.blocks b) :
    ((s.acceptBlock b f).book.blocks.map Block.terms).Perm (b :: s.book.blocks.map Block.terms) ∧
      (s.acceptBlock b f).book.blocks.Pairwise (fun x y => x.terms.last < y.terms.first) ∧
      (∀ x ∈ (s.acceptBlock b f).book.blocks, x.atRisk = true ↔ ∃ y, f = some y ∧ y.interval ≤ x.terms.last) ∧
      (s.acceptBlock b f).book.revision = s.book.revision + 1 := by
  unfold State.acceptBlock
  rw [setMarks_book, Bool.true_or, if_pos rfl]
  refine ⟨?_, ?_, fun x mem => ?_, rfl⟩
  · show List.Perm (List.map Block.terms (markBook f (insertBlock { terms := b, atRisk := false } s.book.blocks))) _
    rw [markBook_terms]
    exact (insertBlock_perm _ _).map _
  · exact (markBook_ordered (insertBlock_ordered (b := { terms := b, atRisk := false }) safe.ordered safe.lengths fits)).imp fun h => h.1
  · obtain ⟨y, -, rfl⟩ := List.mem_map.mp mem
    exact marksBlock_iff f y.terms

/-- The completion tests as R72 and R73 word them. -/
theorem checkOutcome_eq (b : Terms) (snap : Snapshot) (f : Option Failure) :
    s.checkOutcome b snap f =
      if s.prof.mode ≠ .service then .wrongMode
      else if s.inv.epoch ≠ snap.epoch ∨ s.trc.generation ≠ snap.generation ∨ s.inv.status.margin ≠ snap.margin then .changed
      else if s.inv.metering = .stale then .stale
      else match s.tb.clock with
        | none => .gateClosed
        | some c =>
          if b.first < c.interval + s.cfg.gateClosure then .gateClosed
          else match f with
            | none => .accepted
            | some x => if b.first ≤ x.interval ∧ x.interval ≤ b.last then .refused else .accepted := by
  unfold State.checkOutcome
  refine if_congr Iff.rfl rfl (if_congr Iff.rfl rfl (if_congr Iff.rfl rfl ?_))
  cases set : s.tb.clock with
  | none => exact if_pos (.inl rfl)
  | some c =>
    rw [gate_of_clock set]
    refine if_congr (or_iff_right nofun) rfl ?_
    cases f with
    | none => rfl
    | some x => exact if_congr (covers_iff b x.interval) rfl rfl

/-- What the insertion and the marks leave before the engine is passed on: nothing but after an ACCEPTED check. -/
theorem admitted_spec {b : Terms} {f : Option Failure} {accepted newly : Prop} [Decidable accepted]
    (news : newly ↔ accepted ∧ newlyMarked f (insertBlock { terms := b, atRisk := false } s.book.blocks)) :
    s.onlyChanges (if accepted then s.acceptBlock b f else s) [.book, .pp, .tp] ∧
      ∀ p, p = .pp ∨ p = .tp →
        (newly → s.raisedOnly (if accepted then s.acceptBlock b f else s) p .atRisk) ∧
        (¬ newly → (if accepted then s.acceptBlock b f else s).port p = s.port p) := by
  by_cases is : accepted
  · rw [if_pos is]
    refine ⟨setMarks_frame s _ _ _, fun p holds => ?_⟩
    obtain ⟨yes, no⟩ := setMarks_port s (insertBlock { terms := b, atRisk := false } s.book.blocks) true f holds
    exact ⟨fun h => yes (news.mp h).2, fun h => no fun marks => h (news.mpr ⟨is, marks⟩)⟩
  · rw [if_neg is]
    exact ⟨onlyChanges_refl s _, fun p _ => ⟨fun h => absurd (news.mp h).1 is, fun _ => rfl⟩⟩

/-- Settles O44: the result, the insertion with the marks, the engine passed on, the report. -/
theorem checkCompletionAdmitsOrEnds : Obligations.CheckCompletionAdmitsOrEnds := by
  intro s b snap running safe f margin result shown newly report
  have outcome : s.checkOutcome b snap f = result := checkOutcome_eq b snap f
  have failure : reportedFailure result f = shown := reportedFailure_eq result f
  have news : newly ↔ result = .accepted ∧ newlyMarked f (insertBlock { terms := b, atRisk := false } s.book.blocks) :=
    and_congr_right fun _ => (newlyMarked_insertBlock f b s.book.blocks).symm
  have reports (status : Byte) (revision : BitVec 16) :
      report status ++ u16 revision.toNat = status :: result.code :: reportFields b shown revision := reportFields_eq b shown revision status result
  have done := exec_checkCompletion_of_check running
  have ends : s.completeCheck b snap =
      (if result = .accepted then s.acceptBlock b f else s).passOn.reportEnd b result (reportedFailure result f) := by
    unfold State.completeCheck; dsimp only; rw [outcome]
  rw [ends, failure] at done
  clear_value f result shown newly report
  obtain ⟨frame, ports⟩ := admitted_spec (s := s) (b := b) news
  have rejected (no : result ≠ .accepted) : (if result = .accepted then s.acceptBlock b f else s).book = s.book := by rw [if_neg no]
  have book (accepted : result = .accepted) :
      (if result = .accepted then s.acceptBlock b f else s).book = (s.acceptBlock b f).book := by rw [if_pos accepted]
  generalize (if result = .accepted then s.acceptBlock b f else s) = v at done frame ports rejected book
  have prj : v.prj = s.prj := frame_prj frame
  have inv : v.inv = s.inv := frame_inv frame
  have tb : v.tb = s.tb := frame_tb frame
  have waits : s.prj.waiting = none := waiting_none_of_check running safe
  obtain ⟨g, idle, starts, stays⟩ := passOn_of_none (s := v) (by rw [prj]; exact waits)
  have port := port_of_onlyChanges g
  have mode : v.passOn.prj.checkMode = s.prj.checkMode := by
    rw [(passOn_of_no_wait (s := v) (by rw [prj]; exact waits)).2.1, prj]
  generalize v.passOn = w at done g idle starts stays port mode
  have k := reportEnd_frame w b result shown
  have wrote : (w.reportEnd b result shown).book = v.book := (frame_book (s := w) k).trans (frame_book g)
  have engine : (w.reportEnd b result shown).prj = w.prj := frame_prj (s := w) k
  have plant : (w.reportEnd b result shown).port .pp = v.port .pp :=
    (port_of_onlyChanges (s := w) k .pp (by decide)).trans (port .pp (by decide))
  have snapshot (c : Clock) : (w.reportEnd b result shown).snapshot c = v.snapshot c :=
    snapshot_congr ((frame_inv (s := w) k).trans (frame_inv g)) ((frame_trc (s := w) k).trans (frame_trc g)) wrote
      ((frame_settings (s := w) k).trans (frame_settings g)) c
  refine ⟨_, done, onlyChanges_trans (onlyChanges_mono frame (by decide)) (onlyChanges_trans (onlyChanges_mono g (by decide))
      (onlyChanges_mono k (by decide))), ?_, fun no => wrote.trans (rejected no), fun accepted => ?_, fun is => ?_, fun no => ?_,
    fun c pending anchored set => ?_, fun cannot => ?_, fun risk mask zero => ?_⟩
  · unfold State.inFlight at idle ⊢; rw [engine]; exact idle
  · rw [wrote, book accepted]
    exact acceptBlock_book safe (safe.candidate b (inFlight_of_check running))
  · unfold State.raisedOnly; rw [plant]; exact (ports .pp (.inl rfl)).1 is
  · exact plant.trans ((ports .pp (.inl rfl)).2 no)
  · rw [engine, snapshot, starts c (prj ▸ pending) (inv ▸ anchored) (tb ▸ set), prj, ← waits]
  · rw [engine, stays (by rw [prj, inv, tb]; exact cannot), prj, ← waits]
  · obtain ⟨yes, no⟩ := ports .tp (.inr rfl)
    have tp := reported_tp (v := w) (b := b) (r := result) (f := shown) ((port .tp (by decide)).trans (raised_or_same yes no mask zero))
    rw [mode] at tp
    rw [reports, reports, wrote, ← frame_book g]
    exact tp

end Sys2Proof.Proofs
end

section
/-! The projection: one walked interval by its exact quotients (O46), and the walk of a job (O47). -/

namespace Sys2Proof.Proofs
open Sys2Proof Sys2Proof.Machine

/-! ### The two roundings (R37) -/

theorem floor_quotient {q : ℚ} {a : ℤ} {n : ℕ} (is : q = a / n) : ⌊q⌋ = a / n := by
  rw [is, Rat.floor_intCast_div_natCast]

theorem ceil_quotient {q : ℚ} {a : ℤ} {n : ℕ} (is : q = a / n) : ⌈q⌉ = ceilDiv a n := by
  rw [is, Rat.ceil_intCast_div_natCast]; rfl

theorem remainingMinutes_ceil {length millis : ℕ} (within : millis < length * 60000) :
    (remainingMinutes length millis : ℤ) = ⌈((length * 60000 - millis : ℚ) / 60000)⌉ := by
  rw [ceil_quotient (a := length * 60000 - millis) (n := 60000) (by push_cast; rfl)]
  unfold remainingMinutes ceilDiv
  omega

theorem remainingMinutes_bounds {length millis : ℕ} (within : millis < length * 60000) :
    1 ≤ remainingMinutes length millis ∧ remainingMinutes length millis ≤ length := by
  unfold remainingMinutes
  omega

/-! ### One interval (R30 to R32) -/

theorem airMoved_quotient (c : Settings) (b : Terms) (t : ℕ) :
    airMoved c b t = match b.direction with
      | .charge => ⌊((b.power * t * c.airCharge : ℚ) / 60000)⌋
      | .discharge => ⌈((b.power * t * c.airDischarge : ℚ) / 60000)⌉
      | .idle => 0 := by
  unfold airMoved
  cases b.direction with
  | charge => exact (floor_quotient (n := 60000) (by push_cast; rfl)).symm
  | discharge => exact (ceil_quotient (n := 60000) (by push_cast; rfl)).symm
  | idle => rfl

theorem flowStep_mass (c : Settings) (b : Terms) (dm : ℤ) (p : Projected) :
    (flowStep c b dm p).mass = match b.direction with
      | .charge => p.mass + dm
      | .discharge => p.mass - dm
      | .idle => p.mass := by
  unfold flowStep
  cases b.direction <;> rfl

theorem flowStep_heat (c : Settings) (b : Terms) (dm : ℤ) (p : Projected) (k : Tier) :
    (flowStep c b dm p).heat.get k = match b.direction with
      | .charge => p.heat.get k + ⌊((dm * (c.tiers.get k).qCharge : ℚ) / 1000)⌋
      | .discharge => p.heat.get k - ⌈((dm * (c.tiers.get k).qDischarge : ℚ) / 1000)⌉
      | .idle => p.heat.get k := by
  unfold flowStep
  cases b.direction with
  | charge =>
    rw [floor_quotient (a := dm * (c.tiers.get k).qCharge) (n := 1000) (by push_cast; rfl)]
    cases k <;> rfl
  | discharge =>
    rw [ceil_quotient (a := dm * (c.tiers.get k).qDischarge) (n := 1000) (by push_cast; rfl)]
    cases k <;> rfl
  | idle => rfl

theorem lossStep_heat (c : Settings) (t : ℕ) (p : Projected) (k : Tier) :
    (lossStep c t p).heat.get k =
      if 0 < p.heat.get k then p.heat.get k - ⌈((p.heat.get k * (c.tiers.get k).lossRate * t : ℚ) / 1000000)⌉ else p.heat.get k := by
  rw [ceil_quotient (a := p.heat.get k * (c.tiers.get k).lossRate * t) (n := 1000000) (by push_cast; rfl)]
  unfold lossStep
  cases k <;> rfl

theorem needUp_quotient (c : Settings) (b : Terms) :
    needUp c b = ⌈((b.reserveUp * c.reserveDuration * c.airDischarge : ℚ) / 60000)⌉ :=
  (ceil_quotient (n := 60000) (by push_cast; rfl)).symm

theorem needDown_quotient (c : Settings) (b : Terms) :
    needDown c b = ⌈((b.reserveDown * c.reserveDuration * c.airCharge : ℚ) / 60000)⌉ :=
  (ceil_quotient (n := 60000) (by push_cast; rfl)).symm

theorem heatNeed_quotient (c : Settings) (b : Terms) (k : Tier) :
    heatNeed c b k = ⌈((needUp c b * (c.tiers.get k).qDischarge : ℚ) / 1000)⌉ :=
  (ceil_quotient (n := 1000) (by push_cast; rfl)).symm

/-- Settles O46. -/
theorem projectionIntervalFollowsItsRules : Obligations.ProjectionIntervalFollowsItsRules := by
  refine ⟨fun length millis within => ⟨remainingMinutes_ceil within, remainingMinutes_bounds within⟩, fun c b t p => ?_⟩
  intro dm flowed
  have air : airMoved c b t = dm := airMoved_quotient c b t
  have flow (k : Tier) : (flowStep c b dm p).heat.get k = flowed k := flowStep_heat c b dm p k
  refine ⟨air, ?_, fun k => ?_, needUp_quotient c b, needDown_quotient c b, heatNeed_quotient c b⟩
  · unfold walkInterval
    rw [air]
    exact congrArg (· - (c.leakage * t : ℤ)) (flowStep_mass c b dm p)
  · unfold walkInterval
    rw [air, lossStep_heat, flow]

/-! ### The checks of one interval in their order (R33) -/

/-- The ten single checks of an interval, tier by tier, in the order in which a walk reports them (R33). -/
def checksInOrder (w : WalkBasis) (b : Terms) (t : ℕ) (dm : ℤ) (p : Projected) : List (Bool × CheckReason × ℕ) :=
  [(floorOk w b p, .floor, 0), (ceilingOk w b p, .ceiling, 0)] ++
    (Tier.all.map fun k => (heatShortOk w b p k, .heatShort, k.number)) ++
    (Tier.all.map fun k => (heatFullOk w p k, .heatFull, k.number)) ++
    [(powerOk w b, .power, 0), (rateOk w b t dm, .rate, 0)]

theorem intervalChecks_eq (w : WalkBasis) (b : Terms) (t : ℕ) (dm : ℤ) (p : Projected) :
    intervalChecks w b t dm p = ((checksInOrder w b t dm p).find? fun x => !x.1).map Prod.snd := by
  unfold intervalChecks checksInOrder
  rw [List.find?_append, List.find?_append, List.find?_append, List.find?_map, List.find?_map]
  cases floorOk w b p with
  | false => rfl
  | true =>
    cases ceilingOk w b p with
    | false => rfl
    | true =>
      show (match Tier.all.find? fun k => !heatShortOk w b p k with | some k => _ | none => _) =
        (((((Tier.all.find? fun k => !heatShortOk w b p k).map _).or ((Tier.all.find? fun k => !heatFullOk w p k).map _)).or _).map _)
      cases Tier.all.find? fun k => !heatShortOk w b p k with
      | some k => rfl
      | none =>
        cases Tier.all.find? fun k => !heatFullOk w p k with
        | some k => rfl
        | none =>
          cases powerOk w b with
          | false => rfl
          | true => cases rateOk w b t dm <;> rfl

theorem intervalChecks_none {w : WalkBasis} {b : Terms} {t : ℕ} {dm : ℤ} {p : Projected}
    (passes : ∀ x ∈ checksInOrder w b t dm p, x.1 = true) : intervalChecks w b t dm p = none := by
  rw [intervalChecks_eq, List.find?_eq_none.mpr fun x mem => by rw [passes x mem]; decide]
  rfl

theorem intervalChecks_some {w : WalkBasis} {b : Terms} {t : ℕ} {dm : ℤ} {p : Projected} {x : Bool × CheckReason × ℕ}
    {before after : List (Bool × CheckReason × ℕ)} (is : checksInOrder w b t dm p = before ++ x :: after)
    (passes : ∀ y ∈ before, y.1 = true) (fails : x.1 = false) : intervalChecks w b t dm p = some x.2 := by
  have found : (checksInOrder w b t dm p).find? (fun x => !x.1) = some x :=
    List.find?_eq_some_iff_append.mpr ⟨by rw [fails]; rfl, before, after, is, fun y mem => by rw [passes y mem]; rfl⟩
  rw [intervalChecks_eq, found]
  rfl

theorem powerOk_iff (w : WalkBasis) (b : Terms) :
    powerOk w b = true ↔ (b.direction = .discharge → b.power + b.reserveUp ≤ w.turbines) ∧
      (b.direction = .charge → b.power + b.reserveDown ≤ w.compressors) := by
  unfold powerOk
  cases b.direction <;> simp

theorem rateOk_iff (w : WalkBasis) (b : Terms) (t : ℕ) (dm : ℤ) :
    rateOk w b t dm = true ↔ (b.direction = .charge → dm ≤ w.settings.rateCharge * t) ∧
      (b.direction = .discharge → dm ≤ w.settings.rateDischarge * t) := by
  unfold rateOk
  cases b.direction <;> simp

/-! ### The walk from interval to interval (R29, R33) -/

section Walk

variable {w : WalkBasis} {book : List Terms} {start : ℕ} {minutes : ℕ → ℕ} {p : ℕ → Projected}

/-- What the checks of the interval `i` places after `start` say. -/
def checkAt (w : WalkBasis) (book : List Terms) (start : ℕ) (minutes : ℕ → ℕ) (p : ℕ → Projected) (i : ℕ) : Option (CheckReason × ℕ) :=
  intervalChecks w (coverOf book (start + i)) (minutes i) (airMoved w.settings (coverOf book (start + i)) (minutes i)) (p (i + 1))

variable (walks : ∀ i, p (i + 1) = walkInterval w.settings (coverOf book (start + i)) (minutes i) (p i))
  (later : ∀ i, minutes (i + 1) = w.settings.intervalLength)
include walks

theorem walkFrom_of_failed {n i : ℕ} {r : CheckReason} {k : ℕ} (fails : checkAt w book start minutes p i = some (r, k)) :
    walkFrom w book (n + 1) (start + i) (minutes i) (p i) = some { interval := start + i, reason := r, tier := k } := by
  unfold checkAt at fails
  rw [walkFrom, ← walks, fails]

include later

theorem walkFrom_of_passed {n i : ℕ} (passes : checkAt w book start minutes p i = none) :
    walkFrom w book (n + 1) (start + i) (minutes i) (p i) = walkFrom w book n (start + (i + 1)) (minutes (i + 1)) (p (i + 1)) := by
  unfold checkAt at passes
  rw [walkFrom, ← walks, passes, later, Nat.add_assoc]

theorem walkFrom_none {n i : ℕ} (passes : ∀ h, h < i + n → checkAt w book start minutes p h = none) :
    walkFrom w book n (start + i) (minutes i) (p i) = none := by
  induction n generalizing i with
  | zero => rfl
  | succ n ih =>
    rw [walkFrom_of_passed walks later (passes i (by omega))]
    exact ih fun h lt => passes h (by omega)

theorem walkFrom_some {n i d : ℕ} {r : CheckReason} {k : ℕ} (lt : d < n)
    (passes : ∀ h, h < i + d → checkAt w book start minutes p h = none) (fails : checkAt w book start minutes p (i + d) = some (r, k)) :
    walkFrom w book n (start + i) (minutes i) (p i) = some { interval := start + (i + d), reason := r, tier := k } := by
  obtain ⟨n, rfl⟩ : ∃ m, n = m + 1 := ⟨n - 1, by omega⟩
  induction d generalizing n i with
  | zero => exact walkFrom_of_failed walks fails
  | succ d ih =>
    rw [walkFrom_of_passed walks later (passes i (by omega))]
    obtain ⟨n, rfl⟩ : ∃ m, n = m + 1 := ⟨n - 1, by omega⟩
    have shift : i + 1 + d = i + (d + 1) := by omega
    rw [← shift]
    exact ih (fun h lt => passes h (by omega)) (shift ▸ fails) n (by omega)

end Walk

/-! ### What a walk takes from its snapshot (R34, R67) -/

theorem coverOf_eq {blocks : List Terms} {cover : ℕ → Terms}
    (covered : ∀ j, ∀ b ∈ blocks, b.first ≤ j → j ≤ b.last → cover j = b)
    (uncovered : ∀ j, (∀ b ∈ blocks, ¬ (b.first ≤ j ∧ j ≤ b.last)) → cover j = Terms.uncovered) (j : ℕ) : coverOf blocks j = cover j := by
  unfold coverOf
  cases found : blocks.find? fun b => b.covers j with
  | some b =>
    obtain ⟨first, last⟩ := (covers_iff b j).mp (List.find?_some (p := fun b : Terms => b.covers j) found)
    exact (covered j b (List.mem_of_find?_eq_some found) first last).symm
  | none => exact (uncovered j fun b mem within => List.find?_eq_none.mp found b mem ((covers_iff b j).mpr within)).symm

theorem sum_filter_map {α : Type} (q : α → Bool) (f : α → ℕ) (l : List α) :
    ((l.filter q).map f).sum = (l.map fun x => if q x = true then f x else 0).sum := by
  induction l with
  | nil => rfl
  | cons x l ih =>
    rw [List.filter_cons, List.map_cons, List.sum_cons, ← ih]
    split <;> simp

theorem countsAvailable_iff (x : TrainState) :
    countsAvailable x = true ↔ x = .stopped ∨ x = .starting ∨ x = .running ∨ x = .stopping := by
  cases x <;> decide

/-- E_avail and C_avail as a sum over every train of the kind. -/
theorem availableCapacity_eq (c : Settings) (trains : PerTrain TrainState) (kind : Kind) :
    availableCapacity c trains kind =
      (kind.trains.map fun x => if (c.trains.get x).installed = true ∧ (trains.get x = .stopped ∨ trains.get x = .starting ∨
        trains.get x = .running ∨ trains.get x = .stopping) then (c.trains.get x).maxKw else 0).sum := by
  unfold availableCapacity
  rw [sum_filter_map]
  refine congrArg List.sum (List.map_congr_left fun x _ => if_congr ?_ rfl rfl)
  rw [Bool.and_eq_true, countsAvailable_iff]

/-- The single checks as propositions. -/
def asProp (x : Bool × CheckReason × ℕ) : Prop × CheckReason × ℕ := (x.1 = true, x.2)

/-- The single checks of an interval as R33 words them. -/
theorem checksInOrder_asProp (w : WalkBasis) (b : Terms) (t : ℕ) (dm : ℤ) (p : Projected) :
    (checksInOrder w b t dm p).map asProp =
      [((w.settings.massFloor : ℤ) + w.margin * w.settings.massMargin + needUp w.settings b ≤ p.mass, .floor, 0),
        (p.mass ≤ (w.settings.massCeil : ℤ) - w.margin * w.settings.massMargin - needDown w.settings b, .ceiling, 0),
        (heatNeed w.settings b .t1 ≤ p.heat.t1, .heatShort, 1),
        (heatNeed w.settings b .t2 ≤ p.heat.t2, .heatShort, 2),
        (heatNeed w.settings b .t3 ≤ p.heat.t3, .heatShort, 3),
        (p.heat.t1 ≤ w.settings.tiers.t1.capacity, .heatFull, 1),
        (p.heat.t2 ≤ w.settings.tiers.t2.capacity, .heatFull, 2),
        (p.heat.t3 ≤ w.settings.tiers.t3.capacity, .heatFull, 3),
        ((b.direction = .discharge → b.power + b.reserveUp ≤ w.turbines) ∧
          (b.direction = .charge → b.power + b.reserveDown ≤ w.compressors), .power, 0),
        ((b.direction = .charge → dm ≤ w.settings.rateCharge * t) ∧
          (b.direction = .discharge → dm ≤ w.settings.rateDischarge * t), .rate, 0)] := by
  simp only [checksInOrder, Tier.all, List.map_cons, List.map_nil, List.cons_append, List.nil_append, asProp, floorOk, ceilingOk,
    heatShortOk, heatFullOk, decide_eq_true_eq, powerOk_iff, rateOk_iff]
  rfl

/-- A walk that starts at `start` reports the first failing check of the first failing interval. -/
theorem walkFrom_reports {w : WalkBasis} {book : List Terms} {start : ℕ} {minutes : ℕ → ℕ} {p : ℕ → Projected} {cover : ℕ → Terms}
    (covers : ∀ j, coverOf book j = cover j)
    (walks : ∀ i, p (i + 1) = walkInterval w.settings (cover (start + i)) (minutes i) (p i))
    (later : ∀ i, minutes (i + 1) = w.settings.intervalLength) {checks : ℕ → List (Prop × CheckReason × ℕ)}
    (are : ∀ i, checks i = (checksInOrder w (cover (start + i)) (minutes i)
      (airMoved w.settings (cover (start + i)) (minutes i)) (p (i + 1))).map asProp) (n : ℕ) :
    ((∀ i, i < n → ∀ x ∈ checks i, x.1) → walkFrom w book n start (minutes 0) (p 0) = none) ∧
      (∀ i before x after, i < n → (∀ h, h < i → ∀ y ∈ checks h, y.1) → checks i = before ++ x :: after → (∀ y ∈ before, y.1) → ¬ x.1 →
        walkFrom w book n start (minutes 0) (p 0) = some { interval := start + i, reason := x.2.1, tier := x.2.2 }) := by
  obtain rfl : coverOf book = cover := funext covers
  have passed (h : ℕ) (passes : ∀ y ∈ checks h, y.1) : checkAt w book start minutes p h = none :=
    intervalChecks_none fun y mem => passes (asProp y) (by rw [are]; exact List.mem_map_of_mem mem)
  refine ⟨fun passes => ?_, fun i before x after lt passes is begins fails => ?_⟩
  · exact walkFrom_none (i := 0) walks later fun h lt => passed h (passes h (by omega))
  · rw [are] at is
    obtain ⟨before', rest, whole, rfl, tail⟩ := List.map_eq_append_iff.mp is
    obtain ⟨x', after', rfl, rfl, -⟩ := List.map_eq_cons_iff.mp tail
    have failed : checkAt w book start minutes p i = some (x'.2.1, x'.2.2) :=
      intervalChecks_some whole (fun y mem => begins (asProp y) (List.mem_map_of_mem mem)) (Bool.eq_false_iff.mpr fails)
    have ends := walkFrom_some (i := 0) (d := i) walks later lt (fun h less => passed h (passes h (by omega))) (by rw [Nat.zero_add]; exact failed)
    rw [Nat.zero_add] at ends
    exact ends

/-- Settles O47. -/
theorem walkReportsTheFirstFailure : Obligations.WalkReportsTheFirstFailure := by
  refine ⟨fun s clock => ?_, fun snap candidate cover p => ?_⟩
  · unfold State.snapshot InventoryStatus.margin
    cases s.inv.status <;> rfl
  · intro c blocks start minutes kw turbines compressors covered uncovered first walks checks
    have discharge : snap.basis.turbines = turbines := by
      refine (availableCapacity_eq snap.settings snap.trains .turbine).trans ?_
      simp only [Kind.trains, List.map_cons, List.map_nil, List.sum_cons, List.sum_nil, Nat.add_zero, turbines, kw, Nat.add_assoc]
      rfl
    have charge : snap.basis.compressors = compressors := by
      refine (availableCapacity_eq snap.settings snap.trains .compressor).trans ?_
      simp only [Kind.trains, List.map_cons, List.map_nil, List.sum_cons, List.sum_nil, Nat.add_zero, compressors, kw, Nat.add_assoc]
      rfl
    have are (i : ℕ) : checks i = (checksInOrder snap.basis (cover (start + i)) (minutes i)
        (airMoved snap.basis.settings (cover (start + i)) (minutes i)) (p (i + 1))).map asProp := by
      rw [checksInOrder_asProp, discharge, charge]
      rfl
    have reports := walkFrom_reports (w := snap.basis) (coverOf_eq covered uncovered) walks (fun i => if_neg (Nat.succ_ne_zero i)) are 192
    have walk : snap.walk candidate = walkFrom snap.basis blocks 192 start (minutes 0) (p 0) := by rw [first]; rfl
    rw [walk]
    exact reports

end Sys2Proof.Proofs
end

section
/-! ACTIVATE and POLL (O48). -/

namespace Sys2Proof.Proofs
open Sys2Proof Sys2Proof.Machine

variable {s t u : State}

theorem currentBlock_eq_find (s : State) :
    s.currentBlock = s.book.blocks.find? fun b => match s.tb.clock with
      | none => false
      | some c => decide (b.terms.first ≤ c.interval) && decide (c.interval ≤ b.terms.last) := by
  unfold State.currentBlock
  cases s.tb.clock with
  | none => exact (List.find?_eq_none.mpr fun _ _ => Bool.false_ne_true).symm
  | some c => rfl

theorem band_down (s : State) : s.band.down = (s.currentBlock.map fun b => b.terms.reserveDown).getD 0 := by
  unfold State.band; cases s.currentBlock <;> rfl

theorem band_up (s : State) : s.band.up = (s.currentBlock.map fun b => b.terms.reserveUp).getD 0 := by
  unfold State.band; cases s.currentBlock <;> rfl

theorem currentInterval_eq (s : State) : s.currentInterval = (s.tb.clock.map Clock.interval).getD 0 := by
  unfold State.currentInterval; cases s.tb.clock <;> rfl

theorem exec_activate {a : Word} :
    exec (.activate a) s = .next (s.takeFrame .gp fun s =>
      if s.prof.mode = .service then
        (s.withRsv { s.rsv with granted := s.band.clamp a.toInt }).respond .gp 0x30#8 .ok
          (s32 a.toInt ++ s32 (s.band.clamp a.toInt) ++ s.bandBytes ++ u32 s.currentInterval)
      else s.respond .gp 0x30#8 .wrongMode []) := rfl

theorem linkAfterFrame_lossCount (s : State) : s.linkAfterFrame.lossCount = s.rsv.lossCount := by
  unfold State.linkAfterFrame; rfl

theorem linkAfterFrame_granted (s : State) : s.linkAfterFrame.granted = s.rsv.granted := by
  unfold State.linkAfterFrame; rfl

theorem taken_bandBytes (s : State) (p : Port) : (s.taken p).bandBytes = s.bandBytes := rfl

theorem taken_currentInterval (s : State) (p : Port) : (s.taken p).currentInterval = s.currentInterval := rfl

/-- Settles O48. -/
theorem activateAndPollAreAnswered : Obligations.ActivateAndPollAreAnswered := by
  intro s free block down up shown now
  have current : s.currentBlock = block := currentBlock_eq_find s
  have isDown : s.band.down = down := (band_down s).trans (by rw [current])
  have isUp : s.band.up = up := (band_up s).trans (by rw [current])
  have isShown : s.bandBytes = shown := by unfold State.bandBytes State.currentReference; rw [isDown, isUp, current]
  have isNow : u32 s.currentInterval = now := by rw [currentInterval_eq]
  refine ⟨fun a service => ?_, fun a outside => onlyAnswers_of free exec_activate (if_neg outside), ?_⟩
  · intro granted
    have grants : s.band.clamp a.toInt = granted := by unfold Band.clamp hold; rw [isDown, isUp]
    have done := exec_taken free (exec_activate (a := a))
    rw [taken_prof, if_pos service] at done
    have reply : (s32 a.toInt ++ s32 ((s.taken .gp).band.clamp a.toInt) ++ (s.taken .gp).bandBytes ++ u32 (s.taken .gp).currentInterval) =
        s32 a.toInt ++ s32 granted ++ shown ++ now := by
      rw [taken_bandBytes, taken_currentInterval, isShown, isNow, ← grants]; rfl
    rw [reply] at done
    refine ⟨_, done, respond_frame_of (onlyChanges_trans (onlyChanges_mono (taken_frame s .gp) (by decide))
      (onlyChanges_mono (withRsv_frame _ _) (by decide))) (by decide) _ _ _, ?_, repliedPlain_respond _ _ _ rfl⟩
    rw [← grants]
    rfl
  · refine onlyAnswers_of free (exec_poll s) ?_
    have link : s.rsv.link.code = if s.rsv.link = .linked then 1 else 2 := by cases s.rsv.link <;> rfl
    unfold answerPoll
    rw [taken_rsv, if_pos rfl, linkAfterFrame_lossCount, linkAfterFrame_granted, taken_du, taken_bandBytes, taken_currentInterval, isShown, isNow, link]

end Sys2Proof.Proofs
end

section
/-! Which images a check passes, and the values that a passed image gives the blocks (O33). -/

namespace Sys2Proof.Proofs
open Sys2Proof Sys2Proof.Machine

variable {image : Image}

/-! ### What R158 asks of a field -/

/-- What R158 asks of a field of the tier whose fields start at `tier`. -/
def tierAccepts (image : Image) (id tier : ℕ) : Prop :=
  (tier ≤ id → id ≤ tier + 1 → 0 ≤ image.field id ∧ image.field id ≤ 2000) ∧
  (tier + 2 ≤ id → id ≤ tier + 2 → 0 ≤ image.field id ∧ image.field id ≤ 1000) ∧
  (tier + 3 ≤ id → id ≤ tier + 3 → 1 ≤ image.field id ∧ image.field id ≤ 4000000000) ∧
  (id = tier + 4 → image.field id < image.field (tier + 3)) ∧
  (tier + 5 ≤ id → id ≤ tier + 5 → 1 ≤ image.field id ∧ image.field id ≤ 1000)

/-- What R158 asks of a field of the train whose fields start at `train`. -/
def trainAccepts (image : Image) (id train : ℕ) : Prop :=
  (train ≤ id → id ≤ train → 0 ≤ image.field id ∧ image.field id ≤ 1) ∧
  (train + 1 ≤ id → id ≤ train + 1 → 1 ≤ image.field id ∧ image.field id ≤ 200000) ∧
  (id = train + 2 → image.field id ≤ image.field (train + 1)) ∧
  (train + 3 ≤ id → id ≤ train + 4 → 60 ≤ image.field id ∧ image.field id ≤ 7200) ∧
  (train + 5 ≤ id → id ≤ train + 6 → 30 ≤ image.field id ∧ image.field id ≤ 1800) ∧
  (train + 7 ≤ id → id ≤ train + 7 → 60 ≤ image.field id ∧ image.field id ≤ 14400) ∧
  (train + 8 ≤ id → id ≤ train + 8 → 1 ≤ image.field id ∧ image.field id ≤ 8) ∧
  (train + 9 ≤ id → id ≤ train + 9 → 0 ≤ image.field id ∧ image.field id ≤ 1) ∧
  (train + 10 ≤ id → id ≤ train + 10 → 1 ≤ image.field id ∧ image.field id ≤ 2000)

/-- What R158 and R159 ask of the field `id` of an image. -/
def accepts (image : Image) (id : ℕ) : Prop :=
  let v := image.field id
  let within := fun first last least most : ℕ => first ≤ id → id ≤ last → least ≤ v ∧ v ≤ most
  within 1 1 0 65535 ∧ (id = 2 → v = 5 ∨ v = 15 ∨ v = 30 ∨ v = 60) ∧ within 3 3 1 8 ∧ within 4 4 5 120 ∧
  within 5 5 0 2000000 ∧
  within 6 21 0 4000000000 ∧ (7 ≤ id → id ≤ 21 → image.field (id - 1) < v) ∧
  within 22 37 1 65535 ∧ (23 ≤ id → id ≤ 37 → image.field (id - 1) < v) ∧
  within 38 39 (image.field 22) (image.field 37) ∧ (id = 39 → image.field 38 < v) ∧
  within 40 41 1 200000 ∧ within 42 42 0 10000 ∧ within 43 43 1 2000 ∧ within 44 44 1 255 ∧ within 45 46 1000 20000 ∧
  (∀ tier ∈ [47, 53, 59], tierAccepts image id tier) ∧
  (∀ train ∈ [65, 76, 87, 98, 109, 120, 131], trainAccepts image id train) ∧
  within 142 143 1 50000 ∧ within 144 144 0 3600 ∧
  within 145 148 1 4 ∧ (∀ earlier, 145 ≤ earlier → earlier < id → id ≤ 148 → image.field earlier ≠ v) ∧
  within 149 151 1 3 ∧ (∀ earlier, 149 ≤ earlier → earlier < id → id ≤ 151 → image.field earlier ≠ v) ∧
  within 152 152 3 60 ∧ within 153 153 5 300 ∧ within 154 154 2 60 ∧ within 155 155 0 300 ∧ within 156 156 1 255 ∧
  within 157 157 0 1 ∧ within 158 158 0 65535 ∧ (id = 158 → v = (crc16 image).toNat)

/-! ### Rules that reach the field, and rules that do not -/

theorem rule_of_outside {first last id : ℕ} {P : Prop} (out : id < first ∨ last < id) : (first ≤ id → id ≤ last → P) ↔ True :=
  iff_true_intro fun _ _ => by omega

theorem rule_of_inside {first last id : ℕ} {P : Prop} (lo : first ≤ id) (hi : id ≤ last) : (first ≤ id → id ≤ last → P) ↔ P :=
  ⟨fun h => h lo hi, fun h _ _ => h⟩

theorem rule_of_other {n id : ℕ} {P : Prop} (other : id ≠ n) : (id = n → P) ↔ True := iff_true_intro fun is => absurd is other

theorem rule_of_same {n id : ℕ} {P : Prop} (same : id = n) : (id = n → P) ↔ P := ⟨fun h => h same, fun h _ => h⟩

theorem order_of_outside {first last id : ℕ} {P : ℕ → Prop} (out : id ≤ first ∨ last < id) :
    (∀ earlier, first ≤ earlier → earlier < id → id ≤ last → P earlier) ↔ True :=
  iff_true_intro fun _ _ _ _ => by omega

theorem order_of_inside {first last id : ℕ} {P : ℕ → Prop} (hi : id ≤ last) :
    (∀ earlier, first ≤ earlier → earlier < id → id ≤ last → P earlier) ↔ ∀ earlier, first ≤ earlier → earlier < id → P earlier :=
  forall_congr' fun _ => forall_congr' fun _ => forall_congr' fun _ => ⟨fun h => h hi, fun h _ => h⟩

theorem tierAccepts_of_outside {id tier : ℕ} (out : id < tier ∨ tier + 5 < id) : tierAccepts image id tier ↔ True := by
  unfold tierAccepts
  simp (disch := omega) only [rule_of_outside, rule_of_other, and_true]

theorem trainAccepts_of_outside {id train : ℕ} (out : id < train ∨ train + 10 < id) : trainAccepts image id train ↔ True := by
  unfold trainAccepts
  simp (disch := omega) only [rule_of_outside, rule_of_other, and_true]

theorem inRange_iff (lo hi v : ℕ) : inRange lo hi v = true ↔ lo ≤ v ∧ v ≤ hi := by
  unfold inRange; rw [Bool.and_eq_true, decide_eq_true_iff, decide_eq_true_iff]

theorem notEarlier_iff {first id : ℕ} :
    notEarlier image first id = true ↔ ∀ earlier, first ≤ earlier → earlier < id → image.field earlier ≠ image.field id := by
  unfold notEarlier
  simp only [List.all_eq_true, List.mem_range'_1, decide_eq_true_iff]
  exact forall_congr' fun j => ⟨fun h lo hi => h ⟨lo, by omega⟩, fun h within => h within.1 (by omega)⟩

theorem tierFieldOk_iff {base offset : ℕ} (within : offset ≤ 5) :
    tierFieldOk image base offset = true ↔ tierAccepts image (base + offset) base := by
  unfold tierFieldOk tierAccepts
  interval_cases offset <;>
    simp (disch := omega) only [rule_of_outside, rule_of_inside, rule_of_other, true_implies, inRange_iff, decide_eq_true_iff,
      and_true, true_and]

theorem trainFieldOk_iff {base offset : ℕ} (within : offset ≤ 10) :
    trainFieldOk image base offset = true ↔ trainAccepts image (base + offset) base := by
  unfold trainFieldOk trainAccepts
  interval_cases offset <;>
    simp (disch := omega) only [rule_of_outside, rule_of_inside, rule_of_other, true_implies, inRange_iff, decide_eq_true_iff,
      and_true, true_and]

theorem fieldOk_of_tier {tier offset id : ℕ} (starts : tier ∈ [47, 53, 59]) (within : offset ≤ 5) (is : id = tier + offset) :
    fieldOk image id = tierFieldOk image tier offset := by
  have place : 47 + (id - 47) / 6 * 6 = tier ∧ (id - 47) % 6 = offset ∧ 47 ≤ id ∧ id ≤ 64 := by
    simp only [List.mem_cons, List.not_mem_nil, or_false] at starts
    omega
  obtain ⟨base, rest, lo, hi⟩ := place
  unfold fieldOk
  simp (disch := omega) only [if_pos, if_neg, base, rest]

theorem fieldOk_of_train {train offset id : ℕ} (starts : train ∈ [65, 76, 87, 98, 109, 120, 131]) (within : offset ≤ 10)
    (is : id = train + offset) : fieldOk image id = trainFieldOk image train offset := by
  have place : 65 + (id - 65) / 11 * 11 = train ∧ (id - 65) % 11 = offset ∧ 65 ≤ id ∧ id ≤ 141 := by
    simp only [List.mem_cons, List.not_mem_nil, or_false] at starts
    omega
  obtain ⟨base, rest, lo, hi⟩ := place
  unfold fieldOk
  simp (disch := omega) only [if_pos, if_neg, base, rest]

/-- A field of a tier is asked for nothing but what R158 asks of that tier. -/
theorem accepts_of_tier {tier offset id : ℕ} (starts : tier ∈ [47, 53, 59]) (within : offset ≤ 5) (is : id = tier + offset) :
    accepts image id ↔ tierAccepts image id tier := by
  unfold accepts
  simp only [List.mem_cons, List.not_mem_nil, or_false] at starts
  rcases starts with rfl | rfl | rfl <;>
    simp (disch := omega) only [rule_of_outside, rule_of_other, order_of_outside, List.forall_mem_cons, List.not_mem_nil, false_implies,
      implies_true, tierAccepts_of_outside, trainAccepts_of_outside, and_true, true_and]

theorem accepts_of_train {train offset id : ℕ} (starts : train ∈ [65, 76, 87, 98, 109, 120, 131]) (within : offset ≤ 10)
    (is : id = train + offset) : accepts image id ↔ trainAccepts image id train := by
  unfold accepts
  simp only [List.mem_cons, List.not_mem_nil, or_false] at starts
  rcases starts with rfl | rfl | rfl | rfl | rfl | rfl | rfl <;>
    simp (disch := omega) only [rule_of_outside, rule_of_other, order_of_outside, List.forall_mem_cons, List.not_mem_nil, false_implies,
      implies_true, tierAccepts_of_outside, trainAccepts_of_outside, and_true, true_and]

/-- The fields that belong to no tier and to no train, by the rows of R158. -/
theorem fieldOk_iff_of_single {id : ℕ} (first : 1 ≤ id) (last : id ≤ 158) (noTier : id < 47 ∨ 64 < id) (noTrain : id < 65 ∨ 141 < id) :
    fieldOk image id = true ↔ accepts image id := by
  have row : id = 1 ∨ id = 2 ∨ id = 3 ∨ id = 4 ∨ id = 5 ∨ id = 6 ∨ (7 ≤ id ∧ id ≤ 21) ∨ id = 22 ∨ (23 ≤ id ∧ id ≤ 37) ∨ id = 38 ∨
      id = 39 ∨ (40 ≤ id ∧ id ≤ 41) ∨ id = 42 ∨ id = 43 ∨ id = 44 ∨ (45 ≤ id ∧ id ≤ 46) ∨ (142 ≤ id ∧ id ≤ 143) ∨ id = 144 ∨
      (145 ≤ id ∧ id ≤ 148) ∨ (149 ≤ id ∧ id ≤ 151) ∨ id = 152 ∨ id = 153 ∨ id = 154 ∨ id = 155 ∨ id = 156 ∨ id = 157 ∨ id = 158 := by
    omega
  unfold fieldOk accepts
  rcases row with row | row | row | row | row | row | row | row | row | row | row | row | row | row | row | row | row | row | row | row |
    row | row | row | row | row | row | row <;>
    simp (disch := omega) only [if_pos, if_neg, rule_of_outside, rule_of_inside, rule_of_other, rule_of_same, order_of_outside,
      order_of_inside, List.forall_mem_cons, List.not_mem_nil, false_implies, implies_true, tierAccepts_of_outside,
      trainAccepts_of_outside, and_true, true_and, inRange_iff, notEarlier_iff, Bool.and_eq_true, Bool.or_eq_true, decide_eq_true_iff,
      or_assoc]

/-- A check accepts a field exactly where R158 and R159 do. -/
theorem fieldOk_iff {id : ℕ} (first : 1 ≤ id) (last : id ≤ 158) : fieldOk image id = true ↔ accepts image id := by
  by_cases single : (id < 47 ∨ 64 < id) ∧ (id < 65 ∨ 141 < id)
  · exact fieldOk_iff_of_single first last single.1 single.2
  · have place : (∃ tier ∈ [47, 53, 59], ∃ offset, offset ≤ 5 ∧ id = tier + offset) ∨
        ∃ train ∈ [65, 76, 87, 98, 109, 120, 131], ∃ offset, offset ≤ 10 ∧ id = train + offset := by
      simp only [List.mem_cons, List.not_mem_nil, or_false]
      by_cases tier : id ≤ 64
      · exact .inl ⟨47 + (id - 47) / 6 * 6, by omega, (id - 47) % 6, by omega, by omega⟩
      · exact .inr ⟨65 + (id - 65) / 11 * 11, by omega, (id - 65) % 11, by omega, by omega⟩
    rcases place with ⟨tier, starts, offset, within, is⟩ | ⟨train, starts, offset, within, is⟩
    · rw [fieldOk_of_tier starts within is, accepts_of_tier starts within is, is, tierFieldOk_iff within]
    · rw [fieldOk_of_train starts within is, accepts_of_train starts within is, is, trainFieldOk_iff within]

/-! ### The whole check -/

theorem failingField_eq_none_iff : failingField image = none ↔ ∀ id, 1 ≤ id → id ≤ 158 → accepts image id := by
  unfold failingField fieldCount
  simp only [List.find?_eq_none, List.mem_range'_1, Bool.not_eq_true', Bool.not_eq_false]
  refine forall_congr' fun id => ⟨fun h first last => (fieldOk_iff first last).mp (h ⟨first, by omega⟩), fun h within => ?_⟩
  exact (fieldOk_iff within.1 (by omega)).mpr (h within.1 (by omega))

theorem failingField_eq_some_iff (n : ℕ) :
    failingField image = some n ↔ 1 ≤ n ∧ n ≤ 158 ∧ ¬ accepts image n ∧ ∀ id, 1 ≤ id → id < n → accepts image id := by
  unfold failingField fieldCount
  rw [List.find?_range'_eq_some, List.mem_range'_1, Bool.not_eq_true']
  have rejects (first : 1 ≤ n) (last : n ≤ 158) : fieldOk image n = false ↔ ¬ accepts image n := by
    rw [← fieldOk_iff first last, Bool.not_eq_true]
  constructor
  · rintro ⟨fails, ⟨first, last⟩, earlier⟩
    have last : n ≤ 158 := by omega
    refine ⟨first, last, (rejects first last).mp fails, fun id lo hi => (fieldOk_iff lo (by omega)).mp ?_⟩
    simpa using earlier id lo hi
  · rintro ⟨first, last, fails, earlier⟩
    refine ⟨(rejects first last).mpr fails, ⟨first, by omega⟩, fun id lo hi => ?_⟩
    simpa using (fieldOk_iff lo (by omega)).mpr (earlier id lo hi)

/-! ### The merit orders -/

theorem compressorPlace_of_passed (passed : failingField image = none) {id : ℕ} (lo : 145 ≤ id) (hi : id ≤ 148) :
    (1 ≤ image.field id ∧ image.field id ≤ 4) ∧ ∀ earlier, 145 ≤ earlier → earlier < id → image.field earlier ≠ image.field id := by
  have ok := fieldOk_of_failingField_eq_none passed (id := id) (by omega) (by unfold fieldCount; omega)
  unfold fieldOk at ok
  simpa (disch := omega) only [if_pos, if_neg, Bool.and_eq_true, inRange_iff, notEarlier_iff] using ok

theorem turbinePlace_of_passed (passed : failingField image = none) {id : ℕ} (lo : 149 ≤ id) (hi : id ≤ 151) :
    (1 ≤ image.field id ∧ image.field id ≤ 3) ∧ ∀ earlier, 149 ≤ earlier → earlier < id → image.field earlier ≠ image.field id := by
  have ok := fieldOk_of_failingField_eq_none passed (id := id) (by omega) (by unfold fieldCount; omega)
  unfold fieldOk at ok
  simpa (disch := omega) only [if_pos, if_neg, Bool.and_eq_true, inRange_iff, notEarlier_iff] using ok

theorem compressorOfPlace_mem {v : ℕ} (lo : 1 ≤ v) (hi : v ≤ 4) :
    (compressorOfPlace v, v) ∈ [(Train.c1, 1), (.c2, 2), (.c3, 3), (.c4, 4)] := by interval_cases v <;> decide

theorem turbineOfPlace_mem {v : ℕ} (lo : 1 ≤ v) (hi : v ≤ 3) :
    (turbineOfPlace v, v) ∈ [(Train.e1, 1), (.e2, 2), (.e3, 3)] := by interval_cases v <;> decide

/-- Places that are numbered apart and name different trains name every train of a list no longer than they are. -/
theorem order_perm {ids : List ℕ} {trains : List Train} {place : ℕ → Train} {field : ℕ → ℕ} (nodup : ids.Nodup)
    (fits : trains.length ≤ ids.length) (named : ∀ i ∈ ids, place (field i) ∈ trains)
    (apart : ∀ i ∈ ids, ∀ j ∈ ids, i < j → field i ≠ field j)
    (inverse : ∀ i ∈ ids, ∀ j ∈ ids, place (field i) = place (field j) → field i = field j) :
    (ids.map fun i => place (field i)).Perm trains := by
  refine List.Subperm.perm_of_length_le (List.Nodup.subperm (List.Nodup.map_on (fun i hi j hj same => ?_) nodup) fun x hx => ?_)
    (by rw [List.length_map]; exact fits)
  · rcases Nat.lt_trichotomy i j with lt | is | gt
    · exact absurd (inverse i hi j hj same) (apart i hi j hj lt)
    · exact is
    · exact absurd (inverse i hi j hj same).symm (apart j hj i hi gt)
  · obtain ⟨i, hi, rfl⟩ := List.mem_map.mp hx
    exact named i hi

theorem orders_of_passed (passed : failingField image = none) :
    (Settings.ofImage image).compressorOrder.Perm [.c1, .c2, .c3, .c4] ∧
      (Settings.ofImage image).turbineOrder.Perm [.e1, .e2, .e3] := by
  have inCompressors : ∀ i ∈ [145, 146, 147, 148], 145 ≤ i ∧ i ≤ 148 := by decide
  have inTurbines : ∀ i ∈ [149, 150, 151], 149 ≤ i ∧ i ≤ 151 := by decide
  have compressors (i : ℕ) (hi : i ∈ [145, 146, 147, 148]) := compressorPlace_of_passed passed (inCompressors i hi).1 (inCompressors i hi).2
  have turbines (i : ℕ) (hi : i ∈ [149, 150, 151]) := turbinePlace_of_passed passed (inTurbines i hi).1 (inTurbines i hi).2
  have oneCompressor : ∀ a ∈ List.range' 1 4, ∀ b ∈ List.range' 1 4, compressorOfPlace a = compressorOfPlace b → a = b := by decide
  have oneTurbine : ∀ a ∈ List.range' 1 3, ∀ b ∈ List.range' 1 3, turbineOfPlace a = turbineOfPlace b → a = b := by decide
  constructor
  · refine order_perm (by decide) (by decide) (fun i _ => ?_) (fun i hi j hj lt => (compressors j hj).2 i (inCompressors i hi).1 lt)
      fun i hi j hj same => ?_
    · unfold compressorOfPlace; split <;> decide
    · have ri := (compressors i hi).1
      have rj := (compressors j hj).1
      exact oneCompressor _ (List.mem_range'_1.mpr (by omega)) _ (List.mem_range'_1.mpr (by omega)) same
  · refine order_perm (by decide) (by decide) (fun i _ => ?_) (fun i hi j hj lt => (turbines j hj).2 i (inTurbines i hi).1 lt)
      fun i hi j hj same => ?_
    · unfold turbineOfPlace; split <;> decide
    · have ri := (turbines i hi).1
      have rj := (turbines j hj).1
      exact oneTurbine _ (List.mem_range'_1.mpr (by omega)) _ (List.mem_range'_1.mpr (by omega)) same

/-! ### The check word and the values (R159, R25) -/

theorem crc16_eq (image : Image) :
    crc16 image =
      ((image.toList.take 157).flatMap fun w => u32 w.toNat).foldl
        (fun (r : Half) (b : Byte) =>
          (List.range 8).foldl (fun r _ => if r.msb then (r <<< 1) ^^^ 0x1021#16 else r <<< 1) (r ^^^ (b.setWidth 16 <<< 8))) 0xFFFF#16 := by
  unfold crc16 crc16Fields
  rw [List.foldl_flatMap]
  rfl

theorem placed_of_passed (passed : failingField image = none) (place : ℕ) (x : Train) :
    ((Settings.ofImage image).compressorOrder[place]? = some x →
        (x, image.field (145 + place)) ∈ [(Train.c1, 1), (.c2, 2), (.c3, 3), (.c4, 4)]) ∧
      ((Settings.ofImage image).turbineOrder[place]? = some x →
        (x, image.field (149 + place)) ∈ [(Train.e1, 1), (.e2, 2), (.e3, 3)]) := by
  constructor
  · intro found
    have short : place < 4 := (List.getElem?_eq_some_iff.mp found).1
    have range := (compressorPlace_of_passed passed (id := 145 + place) (by omega) (by omega)).1
    have is : x = compressorOfPlace (image.field (145 + place)) := by interval_cases place <;> exact (Option.some.inj found).symm
    rw [is]
    exact compressorOfPlace_mem range.1 range.2
  · intro found
    have short : place < 3 := (List.getElem?_eq_some_iff.mp found).1
    have range := (turbinePlace_of_passed passed (id := 149 + place) (by omega) (by omega)).1
    have is : x = turbineOfPlace (image.field (149 + place)) := by interval_cases place <;> exact (Option.some.inj found).symm
    rw [is]
    exact turbineOfPlace_mem range.1 range.2

/-- Settles O33. -/
theorem passedImagesAgree : Obligations.PassedImagesAgree := by
  refine ⟨fun image => ⟨failingField_eq_none_iff, failingField_eq_some_iff, orders_of_passed⟩, crc16_eq, fun image => ?_⟩
  refine ⟨rfl, rfl, rfl, rfl, rfl, rfl, rfl, rfl, rfl, rfl, rfl, rfl, rfl, rfl, rfl, rfl, rfl, fun k i starts => ?_, fun x i starts => ?_,
    rfl, rfl, rfl, placed_of_passed, rfl, rfl, rfl, rfl, rfl⟩
  · rcases starts with ⟨rfl, rfl⟩ | ⟨rfl, rfl⟩ | ⟨rfl, rfl⟩ <;> rfl
  · simp only [List.mem_cons, Prod.mk.injEq, List.not_mem_nil, or_false] at starts
    rcases starts with ⟨rfl, rfl⟩ | ⟨rfl, rfl⟩ | ⟨rfl, rfl⟩ | ⟨rfl, rfl⟩ | ⟨rfl, rfl⟩ | ⟨rfl, rfl⟩ | ⟨rfl, rfl⟩ <;> rfl

end Sys2Proof.Proofs
end

section
/-! The stages of a dispatch tick, and what every tick does (O50). -/

namespace Sys2Proof.Proofs
open Sys2Proof Sys2Proof.Machine

variable {s t u : State}

/-! ### A tick and the boundary at its instant -/

theorem takeReached_closesTick (n : State) : n.ClosesTick n.takeReached := by
  refine ⟨fun c set reached => ?_, fun early => ?_⟩
  · have boundary : n.takeReached = n.boundary 0 := by
      unfold State.takeReached
      rw [set]
      exact if_pos reached
    rw [boundary]
    exact boundary_takesBoundary set 0
  · unfold State.takeReached
    split
    · rfl
    · next c set => exact if_neg (early c set)

theorem exec_dispatchTick (s : State) : exec .dispatchTick s = .next s.tickInstant.tickParts.takeReached := rfl

/-! ### The dwell and the way a tick takes (R116) -/

theorem expireDwell_eq (s : State) : s.expireDwell = s.withDu s.rested := by
  unfold State.expireDwell State.rested
  split
  · next none => rw [none]; rfl
  · next due some =>
    rw [some]
    dsimp only
    split <;> rfl

theorem rested_metered (s : State) : s.rested.metered = s.du.metered := by
  unfold State.rested
  split
  · split <;> rfl
  · rfl

theorem dispatchPart_of_computing (service : s.prof.mode = .service) (fresh : s.inv.metering = .fresh) :
    s.dispatchPart = s.expireDwell.computeTarget := by
  have f := expireDwell_frame s
  unfold State.dispatchPart
  exact (if_pos (by rw [frame_prof f]; exact service)).trans (if_pos (by rw [frame_inv f]; exact fresh))

theorem dispatchPart_of_stale (service : s.prof.mode = .service) (stale : s.inv.metering = .stale) : s.dispatchPart = s.expireDwell := by
  have f := expireDwell_frame s
  unfold State.dispatchPart
  exact (if_pos (by rw [frame_prof f]; exact service)).trans (if_neg (by rw [frame_inv f, stale]; decide))

theorem dispatchPart_of_rest (away : s.prof.mode ≠ .service) : s.dispatchPart = s.expireDwell.withDu s.expireDwell.du.zeroed := by
  have f := expireDwell_frame s
  unfold State.dispatchPart
  exact if_neg (by rw [frame_prof f]; exact away)

/-! ### The clamps (R117 to R120) -/

/-- The clamped target D3 of a computing tick. -/
def clampedTarget (s : State) : Int := s.rateClamp (s.inventoryClamp (s.capabilityClamp s.requested))

theorem applyClamps_du (s : State) :
    s.applyClamps.du =
      { s.du with
        clamped := clampedTarget s
        headroomUp := s.dischargeLimit - clampedTarget s
        headroomDown := clampedTarget s + s.chargeLimit
        derateReported := decide (clampedTarget s ≠ s.requested) && decide (s.rsv.granted ≠ 0) } := by
  unfold State.applyClamps
  dsimp only
  split <;> split
  · rw [frame_du (raise_frame _ .gp .derated), frame_du (markRecord_frame _ _)]; rfl
  · rw [frame_du (raise_frame _ .gp .derated)]; rfl
  · rw [frame_du (markRecord_frame _ _)]; rfl
  · rfl

/-- A record marked DERATED where `derated` and MIN_LOAD where `minLoad` say so (R120, R127). -/
def markedRecord (derated minLoad : Bool) (r : OpenRecord) : OpenRecord :=
  { r with flags := { r.flags with derated := r.flags.derated || derated, minLoad := r.flags.minLoad || minLoad } }

/-- The Settlement Log once an open record has been marked so. -/
def markedLog (l : SettlementLog) (derated minLoad : Bool) : SettlementLog :=
  { l with current := l.current.map (markedRecord derated minLoad) }

theorem markedLog_false (l : SettlementLog) : markedLog l false false = l := by
  unfold markedLog markedRecord
  cases l with
  | mk current ring => cases current <;> simp

theorem markedLog_markedLog (l : SettlementLog) (derated minLoad : Bool) :
    markedLog (markedLog l derated false) false minLoad = markedLog l derated minLoad := by
  unfold markedLog markedRecord
  cases l with
  | mk current ring => cases current <;> simp

theorem markRecord_setDerated_slog (s : State) : (s.markRecord .setDerated).slog = markedLog s.slog true false := by
  rw [markRecord_slog]
  unfold markedLog markedRecord RecordFlags.setDerated
  simp

theorem markRecord_setMinLoad_slog (s : State) : (s.markRecord .setMinLoad).slog = markedLog s.slog false true := by
  rw [markRecord_slog]
  unfold markedLog markedRecord RecordFlags.setMinLoad
  simp

theorem applyClamps_slog (s : State) : s.applyClamps.slog = markedLog s.slog (decide (clampedTarget s ≠ s.requested)) false := by
  unfold State.applyClamps
  dsimp only
  by_cases derates : clampedTarget s ≠ s.requested
  · rw [decide_eq_true derates]
    unfold clampedTarget at derates
    rw [if_pos derates]
    split
    · rw [frame_slog (raise_frame _ .gp .derated), markRecord_setDerated_slog]; rfl
    · rw [markRecord_setDerated_slog]; rfl
  · rw [decide_eq_false derates, markedLog_false]
    unfold clampedTarget at derates
    rw [if_neg derates]
    split
    · rw [frame_slog (raise_frame _ .gp .derated)]; rfl
    · rfl

theorem applyClamps_gp (s : State) :
    s.applyClamps.port .gp =
      { s.port .gp with
        causes := if s.rsv.granted ≠ 0 ∧ clampedTarget s ≠ s.requested ∧ s.du.derateReported = false then
          (s.port .gp).causes ||| Cause.mask .gp .derated
        else (s.port .gp).causes } := by
  have marked (v : State) (c : Prop) [Decidable c] (f : RecordFlags → RecordFlags) :
      (if c then v.markRecord f else v).port .gp = v.port .gp := by
    split
    · exact port_of_onlyChanges (markRecord_frame v f) .gp (by decide)
    · rfl
  unfold State.applyClamps
  dsimp only
  split
  · next spell =>
    have starts : s.rsv.granted ≠ 0 ∧ clampedTarget s ≠ s.requested ∧ s.du.derateReported = false := by
      simpa [clampedTarget, and_comm, and_left_comm] using spell
    rw [if_pos starts, port_raise, marked]
    rfl
  · next none =>
    have stays : ¬ (s.rsv.granted ≠ 0 ∧ clampedTarget s ≠ s.requested ∧ s.du.derateReported = false) := fun ⟨granted, derates, first⟩ =>
      none (by simp [granted, first]; exact derates)
    rw [if_neg stays, marked]
    rfl

/-! ### The allocation and the sharing -/

/-- A computing tick once the trains have been started and stopped. -/
def allocated (s : State) : State := ((s.applyClamps.formWorking).allocate .compressor).allocate .turbine

theorem computeTarget_eq (s : State) : s.computeTarget = (allocated s).formTarget.setSetpoints := rfl

theorem stopTrain_du (s : State) (x : Train) : ∃ kw, (s.stopTrain x).du = { s.du with setpoint := kw } := by
  unfold State.stopTrain
  split
  · exact ⟨s.du.setpoint.set x 0, rfl⟩
  · exact ⟨s.du.setpoint, rfl⟩

theorem allocate_du (s : State) (k : Kind) : ∃ kw, (s.allocate k).du = { s.du with setpoint := kw } := by
  have same : ∃ kw, s.du = { s.du with setpoint := kw } := ⟨s.du.setpoint, rfl⟩
  unfold State.allocate State.decideStart State.decideStop
  dsimp only
  split
  · split
    · exact same
    · split
      · exact ⟨s.du.setpoint, frame_du (startTrain_frame s _)⟩
      · exact same
  · split
    · split
      · exact same
      · split
        · exact stopTrain_du s _
        · exact same
    · exact same

theorem formWorking_frame (s : State) : s.onlyChanges s.formWorking [.du] := withDu_frame s _

theorem allocated_from_clamps (s : State) : s.applyClamps.onlyChanges (allocated s) [.trc, .du] :=
  onlyChanges_trans (onlyChanges_mono (formWorking_frame _) (by decide))
    (onlyChanges_trans (allocate_frame _ .compressor) (allocate_frame _ .turbine))

theorem allocated_frame (s : State) : s.onlyChanges (allocated s) computeParts :=
  onlyChanges_trans (onlyChanges_mono (applyClamps_frame s) (by decide)) (onlyChanges_mono (allocated_from_clamps s) (by decide))

theorem allocated_du (s : State) : ∃ kw, (allocated s).du = { s.applyClamps.formWorking.du with setpoint := kw } := by
  obtain ⟨a, first⟩ := allocate_du s.applyClamps.formWorking .compressor
  obtain ⟨b, second⟩ := allocate_du (s.applyClamps.formWorking.allocate .compressor) .turbine
  rw [first] at second
  exact ⟨b, second⟩

theorem formTarget_frame (s : State) : s.onlyChanges s.formTarget [.du] := by
  unfold State.formTarget
  exact withDu_frame s _

theorem setSetpoints_slog (s : State) : s.setSetpoints.slog = markedLog s.slog false s.minLoad := by
  unfold State.setSetpoints
  dsimp only
  cases low : s.minLoad with
  | true => exact (if_pos rfl).symm ▸ markRecord_setMinLoad_slog _
  | false => rw [markedLog_false]; rfl

theorem computeTarget_slog (s : State) :
    s.computeTarget.slog = markedLog s.slog (decide (clampedTarget s ≠ s.requested)) (allocated s).formTarget.minLoad := by
  rw [computeTarget_eq, setSetpoints_slog, frame_slog (formTarget_frame _), frame_slog (allocated_from_clamps s), applyClamps_slog,
    markedLog_markedLog]

theorem computeTarget_metered (s : State) : s.computeTarget.du.metered = s.du.metered := by
  obtain ⟨kw, du⟩ := allocated_du s
  have clamps : s.applyClamps.du.metered = s.du.metered := by rw [applyClamps_du]
  rw [computeTarget_eq, setSetpoints_du]
  unfold State.formTarget
  rw [State.withDu_du, du]
  exact clamps

theorem currentBlock_eq_bind (s : State) :
    s.currentBlock = s.tb.clock.bind fun c => s.book.blocks.find? fun b =>
      decide (b.terms.first ≤ c.interval) && decide (c.interval ≤ b.terms.last) := by
  unfold State.currentBlock
  cases s.tb.clock <;> rfl

theorem scheduledBase_eq (current : Option Block) :
    scheduledBase current = match current with
      | none => 0
      | some b => match b.terms.direction with
        | .discharge => b.terms.power
        | .charge => -b.terms.power
        | .idle => 0 := by
  unfold scheduledBase
  cases current <;> rfl

/-! ### The second of a tick (R150) -/

theorem settlementPart_slog (s : State) : s.settlementPart.slog = { s.slog with current := s.slog.current.map s.recordSecond } := by
  unfold State.settlementPart
  split
  · next none => rw [none]; exact congrArg (fun x => { s.slog with current := x }) none
  · next r some => rw [some]; rfl

theorem recordSecond_congr {l : List Part} (f : s.onlyChanges t l) (metered : t.du.metered = s.du.metered)
    (tb : Part.tb ∉ l := by decide) (book : Part.book ∉ l := by decide) (rsv : Part.rsv ∉ l := by decide)
    (inv : Part.inv ∉ l := by decide) : t.recordSecond = s.recordSecond := by
  funext r
  unfold State.recordSecond
  rw [currentBlock_of_frame f tb book, metered, frame_rsv f rsv, frame_inv f inv]

theorem dispatchPart_metered (s : State) : s.dispatchPart.du.metered = s.du.metered := by
  have rested : s.expireDwell.du.metered = s.du.metered := by rw [expireDwell_eq]; exact rested_metered s
  by_cases service : s.prof.mode = .service
  · cases metering : s.inv.metering with
    | fresh => rw [dispatchPart_of_computing service metering, computeTarget_metered, rested]
    | stale => rw [dispatchPart_of_stale service metering, rested]
  · rw [dispatchPart_of_rest service]
    exact rested

/-- The Settlement Log after a tick: the marks of the dispatch part, then the second. -/
theorem tickParts_slog (m : State) {derated minLoad : Bool} (marks : m.dispatchPart.slog = markedLog m.slog derated minLoad) :
    m.tickParts.slog = { markedLog m.slog derated minLoad with current := (markedLog m.slog derated minLoad).current.map m.recordSecond } := by
  unfold State.tickParts
  rw [settlementPart_slog, marks, recordSecond_congr (dispatchPart_frame m) (dispatchPart_metered m)]

theorem dispatchPart_slog_of_idle (m : State) (idle : m.prof.mode ≠ .service ∨ m.inv.metering = .stale) :
    m.dispatchPart.slog = markedLog m.slog false false := by
  rw [markedLog_false]
  by_cases service : m.prof.mode = .service
  · rw [dispatchPart_of_stale service (idle.resolve_left (not_not.mpr service))]
    exact frame_slog (expireDwell_frame m)
  · rw [dispatchPart_of_rest service]
    exact frame_slog (s := m) (t := m.expireDwell) (expireDwell_frame m)

theorem dispatchPart_slog_of_computing {m : State} (service : m.prof.mode = .service) (fresh : m.inv.metering = .fresh) :
    m.dispatchPart.slog = markedLog m.slog (decide (clampedTarget m.expireDwell ≠ m.expireDwell.requested))
      (allocated m.expireDwell).formTarget.minLoad := by
  rw [dispatchPart_of_computing service fresh, computeTarget_slog, frame_slog (expireDwell_frame m)]

theorem dispatchPart_slog (m : State) : ∃ derated minLoad, m.dispatchPart.slog = markedLog m.slog derated minLoad ∧
    (m.prof.mode ≠ .service ∨ m.inv.metering = .stale → derated = false ∧ minLoad = false) := by
  by_cases idle : m.prof.mode ≠ .service ∨ m.inv.metering = .stale
  · exact ⟨false, false, dispatchPart_slog_of_idle m idle, fun _ => ⟨rfl, rfl⟩⟩
  · obtain ⟨service, fresh⟩ := not_or.mp idle
    have fresh : m.inv.metering = .fresh := by cases metering : m.inv.metering <;> trivial
    exact ⟨_, _, dispatchPart_slog_of_computing (not_not.mp service) fresh, fun h => absurd h idle⟩

/-- Settles O50. -/
theorem dispatchTickTakesASecond : Obligations.DispatchTickTakesASecond := by
  refine ⟨fun s => ?_, fun s u taken => ?_⟩
  · intro m current base
    have block : m.currentBlock = current := currentBlock_eq_bind m
    have scheduled : scheduledBase m.currentBlock = base := by rw [block]; exact scheduledBase_eq current
    refine ⟨fun isOpen => if_pos isOpen, fun closed => if_neg (by rw [closed]; decide), m.tickParts, _, exec_dispatchTick s,
      takeReached_closesTick _, tickParts_frame m, ?_⟩
    obtain ⟨derated, minLoad, marks, unmarked⟩ := dispatchPart_slog m
    have log := tickParts_slog m marks
    refine ⟨by rw [log]; rfl, fun none => by rw [log]; unfold markedLog; rw [none]; rfl, fun r opened => ?_, fun away => ?_,
      fun service stale => ?_⟩
    · refine ⟨(m.recordSecond (markedRecord derated minLoad r)).flags, ?_, ?_, ?_, rfl, rfl, rfl, rfl, fun idle => ?_⟩
      · rw [log]
        unfold markedLog markedRecord State.recordSecond
        rw [opened, scheduled]
        have up : max m.rsv.granted 0 = if 0 < m.rsv.granted then m.rsv.granted else 0 := by split <;> omega
        have down : max (-m.rsv.granted) 0 = if m.rsv.granted < 0 then -m.rsv.granted else 0 := by split <;> omega
        rw [up, down]
        rfl
      · unfold State.recordSecond markedRecord
        rw [block]
        cases current <;> simp
      · unfold State.recordSecond markedRecord
        simp
      · obtain ⟨rfl, rfl⟩ := unmarked idle
        exact ⟨Bool.or_false _, Bool.or_false _⟩
    · have part := dispatchPart_of_rest away
      have f := settlementPart_frame m.dispatchPart
      refine ⟨?_, ?_, ?_⟩ <;> unfold State.tickParts
      · rw [frame_trc f, part]; exact frame_trc (s := m) (t := m.expireDwell) (expireDwell_frame m)
      · rw [port_of_onlyChanges f .gp (by decide), part]; exact port_of_onlyChanges (expireDwell_frame m) .gp (by decide)
      · rw [frame_du f, part, expireDwell_eq]; rfl
    · have part := dispatchPart_of_stale service stale
      have f := settlementPart_frame m.dispatchPart
      refine ⟨?_, ?_, ?_⟩ <;> unfold State.tickParts
      · rw [frame_trc f, part]; exact frame_trc (expireDwell_frame m)
      · rw [port_of_onlyChanges f .gp (by decide), part]; exact port_of_onlyChanges (expireDwell_frame m) .gp (by decide)
      · rw [frame_du f, part, expireDwell_eq]; rfl
  · obtain ⟨due, hd, le⟩ := takenAt_due taken
    exact ⟨due, u.endDwell, hd, le, exec_row_of_takenAt taken, withDu_frame u _, rfl⟩

end Sys2Proof.Proofs
end

section
/-! A computing tick: the clamps, the changeover, the ramp and the headroom (O51). -/

namespace Sys2Proof.Proofs
open Sys2Proof Sys2Proof.Machine

variable {s t u m : State}

/-! ### What blocks a direction (R119) -/

theorem unanchored_iff (x : InventoryStatus) : (!x.anchored) = true ↔ x = .unanchored := by cases x <;> decide

theorem dischargeBlocked_iff (s : State) :
    s.dischargeBlocked = true ↔ s.inv.status = .unanchored ∨ s.inv.mass ≤ s.cfg.massFloor ∨
      ∃ k ∈ Tier.all, 0 < (s.cfg.tiers.get k).qDischarge ∧ s.inv.heat.get k ≤ (s.cfg.tiers.get k).minHeat := by
  unfold State.dischargeBlocked
  simp only [Bool.or_eq_true, unanchored_iff, decide_eq_true_iff, List.any_eq_true, Bool.and_eq_true, or_assoc]

theorem chargeBlocked_iff (s : State) :
    s.chargeBlocked = true ↔ s.inv.status = .unanchored ∨ s.cfg.massCeil ≤ s.inv.mass ∨
      ∃ k ∈ Tier.all, 0 < (s.cfg.tiers.get k).qCharge ∧ (s.cfg.tiers.get k).capacity ≤ s.inv.heat.get k := by
  unfold State.chargeBlocked
  simp only [Bool.or_eq_true, unanchored_iff, decide_eq_true_iff, List.any_eq_true, Bool.and_eq_true, or_assoc]

theorem inventoryClamp_eq {D C : Prop} (d : Int) [Decidable ((0 < d ∧ D) ∨ (d < 0 ∧ C))] (discharge : s.dischargeBlocked = true ↔ D)
    (charge : s.chargeBlocked = true ↔ C) : s.inventoryClamp d = if (0 < d ∧ D) ∨ (d < 0 ∧ C) then 0 else d := by
  unfold State.inventoryClamp
  rcases Int.lt_trichotomy d 0 with negative | zero | positive
  · have no : ¬ 0 < d := by omega
    rw [if_neg no, if_pos negative]
    exact if_congr (charge.trans (by simp [no, negative])) rfl rfl
  · subst zero
    rw [if_neg (by omega), if_neg (by omega), ite_self]
  · have no : ¬ d < 0 := by omega
    rw [if_pos positive]
    exact if_congr (discharge.trans (by simp [no, positive])) rfl rfl

/-- The discharge part of the headroom (R120). -/
theorem dischargeLimit_eq {D : Prop} (discharge : s.dischargeBlocked = true ↔ D) :
    (D → s.dischargeLimit = 0) ∧ (¬ D → s.dischargeLimit = min (s.capability .turbine) s.cfg.dischargeCap) :=
  ⟨fun blocked => if_pos (discharge.mpr blocked), fun isOpen => if_neg fun blocked => isOpen (discharge.mp blocked)⟩

theorem chargeLimit_eq {C : Prop} (charge : s.chargeBlocked = true ↔ C) :
    (C → s.chargeLimit = 0) ∧ (¬ C → s.chargeLimit = min (s.capability .compressor) s.cfg.chargeCap) :=
  ⟨fun blocked => if_pos (charge.mpr blocked), fun isOpen => if_neg fun blocked => isOpen (charge.mp blocked)⟩

/-! ### The changeover (R121) -/

theorem kind_eq_other_iff (a k : Kind) : a = k.other ↔ a ≠ k := by cases a <;> cases k <;> decide

theorem kindOf_ne_iff {a b : Int} (first : a ≠ 0) (second : b ≠ 0) : kindOf a ≠ kindOf b ↔ (0 < b ∧ a < 0) ∨ (b < 0 ∧ 0 < a) := by
  unfold kindOf
  split <;> split <;> simp <;> omega

/-- The changeover conditions, one by one. -/
theorem changeoverHolds_iff (s : State) (d : Int) :
    s.changeoverHolds d = true ↔
      ((0 < d ∧ s.du.previous < 0) ∨ (d < 0 ∧ 0 < s.du.previous)) ∨
      (d ≠ 0 ∧ ∃ x : Train, x.kind ≠ kindOf d ∧ (s.train x).state.active = true) ∨
      (d ≠ 0 ∧ s.du.dwell ≠ none ∧ s.du.dwellKind ≠ some (kindOf d)) := by
  have other : s.anyActive (kindOf d).other = true ↔ ∃ x : Train, x.kind ≠ kindOf d ∧ (s.train x).state.active = true := by
    rw [anyActive_iff]
    exact exists_congr fun x => and_congr_left fun _ => kind_eq_other_iff _ _
  unfold State.changeoverHolds
  simp only [Bool.and_eq_true, Bool.or_eq_true, decide_eq_true_iff, other, Option.isSome_iff_ne_none]
  by_cases zero : d = 0
  · subst zero
    simp
  · have turns : s.du.previous ≠ 0 ∧ kindOf s.du.previous ≠ kindOf d ↔
        (0 < d ∧ s.du.previous < 0) ∨ (d < 0 ∧ 0 < s.du.previous) := by
      by_cases still : s.du.previous = 0
      · simp [still]
      · rw [kindOf_ne_iff still zero]
        exact and_iff_right still
    rw [turns, or_assoc]
    simp only [zero, ne_eq, not_false_eq_true, true_and]

/-! ### The parts of a computing tick -/

theorem formWorking_working (s : State) :
    s.formWorking.du.working = if s.changeoverHolds s.du.clamped then 0 else s.du.clamped := rfl

theorem changeoverHolds_congr {d : Int} (trc : t.trc = s.trc) (previous : t.du.previous = s.du.previous) (dwell : t.du.dwell = s.du.dwell)
    (kind : t.du.dwellKind = s.du.dwellKind) : t.changeoverHolds d = s.changeoverHolds d := by
  unfold State.changeoverHolds State.anyActive
  simp only [train_congr trc, previous, dwell, kind]

/-- What the allocation leaves of the Dispatch Unit, beside the setpoints. -/
theorem allocated_du_eq (s : State) :
    ∃ kw, (allocated s).du =
      { s.du with
        clamped := clampedTarget s
        working := if s.changeoverHolds (clampedTarget s) then 0 else clampedTarget s
        headroomUp := s.dischargeLimit - clampedTarget s
        headroomDown := clampedTarget s + s.chargeLimit
        derateReported := decide (clampedTarget s ≠ s.requested) && decide (s.rsv.granted ≠ 0)
        setpoint := kw } := by
  obtain ⟨kw, du⟩ := allocated_du s
  have clamps := applyClamps_du s
  have holds : s.applyClamps.changeoverHolds (clampedTarget s) = s.changeoverHolds (clampedTarget s) :=
    changeoverHolds_congr (frame_trc (applyClamps_frame s)) (by rw [clamps]) (by rw [clamps]) (by rw [clamps])
  refine ⟨kw, ?_⟩
  rw [du]
  unfold State.formWorking
  rw [State.withDu_du, clamps]
  dsimp only
  rw [holds]

/-- D: the working target within the ramp, then within the running capacity of its own sign (R126). -/
def dispatched (s : State) : Int :=
  if 0 < hold (s.du.previous - s.cfg.rampDown) (s.du.previous + s.cfg.rampUp) s.du.working then
    min (hold (s.du.previous - s.cfg.rampDown) (s.du.previous + s.cfg.rampUp) s.du.working) (s.runningCapacity .turbine)
  else max (hold (s.du.previous - s.cfg.rampDown) (s.du.previous + s.cfg.rampUp) s.du.working) (-(s.runningCapacity .compressor : Int))

theorem formTarget_du (s : State) : s.formTarget.du = { s.du with target := dispatched s, previous := dispatched s } := rfl

theorem rested_previous (s : State) : s.rested.previous = s.du.previous := by
  unfold State.rested
  split
  · split <;> rfl
  · rfl

theorem rested_derateReported (s : State) : s.rested.derateReported = s.du.derateReported := by
  unfold State.rested
  split
  · split <;> rfl
  · rfl

section Computing

variable (service : m.prof.mode = .service) (fresh : m.inv.metering = .fresh)
include service fresh

theorem tickParts_of_computing : m.tickParts = (allocated m.expireDwell).formTarget.setSetpoints.settlementPart := by
  unfold State.tickParts
  rw [dispatchPart_of_computing service fresh, computeTarget_eq]

theorem tickParts_du_of_computing :
    m.tickParts.du =
      { (allocated m.expireDwell).du with
        target := dispatched (allocated m.expireDwell), previous := dispatched (allocated m.expireDwell)
        setpoint := PerTrain.of (allocated m.expireDwell).formTarget.setpointFor } := by
  rw [tickParts_of_computing service fresh, frame_du (settlementPart_frame _), setSetpoints_du, formTarget_du]

theorem tickParts_trc_of_computing : m.tickParts.trc = (allocated m.expireDwell).trc := by
  rw [tickParts_of_computing service fresh, frame_trc (settlementPart_frame _), frame_trc (setSetpoints_frame _),
    frame_trc (formTarget_frame _)]

theorem tickParts_gp_of_computing : m.tickParts.port .gp = m.expireDwell.applyClamps.port .gp := by
  rw [tickParts_of_computing service fresh, port_of_onlyChanges (settlementPart_frame _) .gp (by decide),
    port_of_onlyChanges (setSetpoints_frame _) .gp (by decide), port_of_onlyChanges (formTarget_frame _) .gp (by decide)]
  exact port_of_onlyChanges (allocated_from_clamps m.expireDwell) .gp (by decide)

theorem tickParts_slog_of_computing :
    m.tickParts.slog = { m.slog with
      current := m.slog.current.map fun r => m.recordSecond (markedRecord (decide (clampedTarget m.expireDwell ≠ m.expireDwell.requested))
        (allocated m.expireDwell).formTarget.minLoad r) } := by
  rw [tickParts_slog m (dispatchPart_slog_of_computing service fresh)]
  unfold markedLog
  rw [Option.map_map]
  rfl

end Computing

theorem runningCapacity_eq (s : State) (k : Kind) :
    s.runningCapacity k = ((k.trains.filter fun x => decide ((s.train x).state = .running)).map fun x => (s.trainCfg x).maxKw).sum := rfl

/-- Settles O51. -/
theorem computingTickFormsTheTarget : Obligations.ComputingTickFormsTheTarget := by
  intro s m service fresh current base requested capability d1 blocksDischarge blocksCharge d2 d3 kind changes waits dwells
  have asked : m.expireDwell.requested = requested := by
    rw [expireDwell_eq]
    exact congrArg (· + m.rsv.granted) ((congrArg scheduledBase (currentBlock_eq_bind m)).trans (scheduledBase_eq current))
  have discharge : m.expireDwell.dischargeBlocked = true ↔ blocksDischarge := by rw [expireDwell_eq]; exact dischargeBlocked_iff _
  have charge : m.expireDwell.chargeBlocked = true ↔ blocksCharge := by rw [expireDwell_eq]; exact chargeBlocked_iff _
  have able : m.expireDwell.capability = capability := by rw [expireDwell_eq]; rfl
  have first : m.expireDwell.capabilityClamp requested = d1 := by
    unfold State.capabilityClamp hold
    rw [able]
  have clamped : clampedTarget m.expireDwell = d3 := by
    unfold clampedTarget
    rw [asked, first, inventoryClamp_eq d1 discharge charge, expireDwell_eq]
    rfl
  have previous : m.expireDwell.du.previous = m.du.previous := by rw [expireDwell_eq]; exact rested_previous m
  have changeover : m.expireDwell.changeoverHolds d3 = true ↔ changes ∨ waits ∨ dwells := by
    rw [changeoverHolds_iff, previous, expireDwell_eq]
    rfl
  obtain ⟨limitBlocked, limitOpen⟩ := dischargeLimit_eq discharge
  obtain ⟨chargeBlocked, chargeOpen⟩ := chargeLimit_eq charge
  have caps : m.expireDwell.cfg = m.cfg := by rw [expireDwell_eq]; rfl
  rw [able, caps] at limitOpen chargeOpen
  obtain ⟨kw, du⟩ := allocated_du_eq m.expireDwell
  have granted : m.expireDwell.rsv = m.rsv := by rw [expireDwell_eq]; rfl
  have dwell : m.expireDwell.du = m.rested := by rw [expireDwell_eq]; rfl
  have gp : m.expireDwell.port .gp = m.port .gp := by rw [expireDwell_eq]; rfl
  have reported : m.expireDwell.du.derateReported = m.du.derateReported := by rw [expireDwell_eq]; exact rested_derateReported m
  have port := (tickParts_gp_of_computing service fresh).trans (applyClamps_gp m.expireDwell)
  have log := tickParts_slog_of_computing service fresh
  rw [clamped, asked] at du port log
  have trc := (tickParts_trc_of_computing service fresh).symm
  have f : m.onlyChanges (allocated m.expireDwell) computeParts :=
    onlyChanges_trans (onlyChanges_mono (expireDwell_frame m) (by decide)) (allocated_frame _)
  have after := tickParts_du_of_computing service fresh
  refine ⟨m.tickParts, _, exec_dispatchTick s, takeReached_closesTick _, ?_⟩
  intro running
  have runs (k : Kind) : (allocated m.expireDwell).runningCapacity k = running k := by
    rw [runningCapacity_eq]
    simp only [train_congr trc, trainCfg_congr (frame_settings f)]
    rfl
  rw [granted, reported, gp] at port
  rw [granted] at du
  clear_value d3 d2
  clear_value requested blocksDischarge blocksCharge changes waits dwells capability running
  generalize allocated m.expireDwell = w at du trc f after runs log
  generalize m.tickParts = n at after port log
  rw [dwell] at du previous
  have low : n.du.previous = n.du.target := by rw [after]
  refine ⟨by rw [after, du], fun holds => ?_, fun noChange noWait noDwell => ?_, fun ramped is => ?_, low, by rw [after, du], by rw [after, du],
    fun blocked => ?_, fun isOpen => ?_, fun blocked => ?_, fun isOpen => ?_, fun r opened => ?_, ?_, port⟩
  · rw [after, du]
    exact if_pos (changeover.mpr holds)
  · rw [after, du]
    refine if_neg fun holds => ?_
    rcases changeover.mp holds with change | wait | dwell
    · exact noChange change
    · exact noWait wait
    · exact noDwell dwell
  · have working : n.du.working = w.du.working := by rw [after]
    have before : w.du.previous = m.du.previous := by rw [du]; exact previous
    have target : n.du.target = dispatched w := by rw [after]
    rw [target]
    unfold dispatched hold
    rw [before, cfg_congr (frame_settings f), ← working, ← is, runs, runs]
  · rw [after, du]
    dsimp only
    rw [limitBlocked blocked]
    omega
  · rw [after, du]
    dsimp only
    rw [limitOpen isOpen, Nat.cast_min]
  · rw [after, du]
    dsimp only
    rw [chargeBlocked blocked]
    omega
  · rw [after, du]
    dsimp only
    rw [chargeOpen isOpen, Nat.cast_min]
  · refine ⟨_, by rw [log, opened]; rfl, ?_⟩
    unfold State.recordSecond markedRecord
    simp
  · rw [after, du]
    simp [and_comm]

end Sys2Proof.Proofs
end

section
/-! The starts and stops of a computing tick (O52). -/

namespace Sys2Proof.Proofs
open Sys2Proof Sys2Proof.Machine

variable {s t u m g : State} {k : Kind}

/-! ### The required count (R123) -/

/-- The required count is the least number of entries from the front that reach the demand, or the whole list. -/
theorem requiredCount_unique {demand count : ℕ} {kws : List ℕ} (fits : count ≤ kws.length)
    (reaches : demand ≤ (kws.take count).sum ∨ count = kws.length) (least : ∀ j, j < count → (kws.take j).sum < demand) :
    requiredCount demand kws = count := by
  induction kws generalizing demand count with
  | nil =>
    obtain rfl : count = 0 := Nat.le_zero.mp fits
    cases demand <;> rfl
  | cons kw rest ih =>
    cases count with
    | zero =>
      obtain rfl : demand = 0 := Nat.le_zero.mp (reaches.resolve_right nofun)
      rfl
    | succ count =>
      obtain ⟨d, rfl⟩ : ∃ d, demand = d + 1 := ⟨demand - 1, by have first := least 0 (by omega); omega⟩
      have step : requiredCount (d + 1) (kw :: rest) = 1 + requiredCount (d + 1 - kw) rest := rfl
      rw [step, ih (count := count) (Nat.le_of_succ_le_succ fits) ?_ fun j lt => ?_, Nat.add_comm]
      · refine reaches.imp (fun le => ?_) fun whole => Nat.succ.inj whole
        rw [List.take_succ_cons, List.sum_cons] at le
        omega
      · have less := least (j + 1) (by omega)
        rw [List.take_succ_cons, List.sum_cons] at less
        omega

theorem demandOf_eq (k : Kind) (w : Int) : demandOf k w = match k with | .turbine => w.toNat | .compressor => (-w).toNat := by
  unfold demandOf kindOf
  cases k <;> dsimp only <;> split <;> split at * <;> simp_all <;> omega

/-! ### The merit orders -/

theorem compressorOfPlace_kind (v : ℕ) : (compressorOfPlace v).kind = .compressor := by
  unfold compressorOfPlace; split <;> rfl

theorem turbineOfPlace_kind (v : ℕ) : (turbineOfPlace v).kind = .turbine := by
  unfold turbineOfPlace; split <;> rfl

/-- A merit order lists trains of its own kind. -/
theorem merit_kind (safe : s.SettingsSafe) {x : Train} (listed : x ∈ s.merit k) : x.kind = k := by
  cases loaded : s.settings with
  | none =>
    have empty : s.merit k = [] := by unfold State.merit State.cfg; rw [loaded]; cases k <;> rfl
    rw [empty] at listed
    cases listed
  | some c =>
    obtain ⟨image, -, rfl⟩ := safe c loaded
    unfold State.merit at listed
    rw [cfg_of_settings loaded] at listed
    cases k with
    | compressor =>
      obtain ⟨i, -, rfl⟩ := List.mem_map.mp (listed : x ∈ [145, 146, 147, 148].map fun i => compressorOfPlace (image.field i))
      exact compressorOfPlace_kind _
    | turbine =>
      obtain ⟨i, -, rfl⟩ := List.mem_map.mp (listed : x ∈ [149, 150, 151].map fun i => turbineOfPlace (image.field i))
      exact turbineOfPlace_kind _

theorem merit_congr (h : t.settings = s.settings) (k : Kind) : t.merit k = s.merit k := by
  unfold State.merit; rw [cfg_congr h]

theorem mem_inState {x : Train} {state : TrainState} (listed : x ∈ s.inState k state) : x ∈ s.merit k ∧ (s.train x).state = state := by
  obtain ⟨listed, both⟩ := List.mem_filter.mp listed
  exact ⟨listed, of_decide_eq_true (Bool.and_eq_true_iff.mp both).2⟩

theorem mem_startables {x : Train} (listed : x ∈ s.startables k) : x ∈ s.merit k ∧ s.startable x = true := by
  obtain ⟨listed, both⟩ := List.mem_filter.mp listed
  exact ⟨listed, (Bool.and_eq_true_iff.mp both).2⟩

/-! ### The allocation of one kind (R123 to R125) -/

/-- The required count of a kind in a state. -/
def required (s : State) (k : Kind) : ℕ :=
  requiredCount (demandOf k s.du.working) ((s.allocationList k).map fun x => (s.trainCfg x).maxKw)

/-- The record of a train once a START has been carried out (R94). -/
def startedRecord (s : State) (x : Train) : TrainRecord :=
  { (s.train x).leave with
    state := .starting, history := (s.train x).history ++ [s.now], start := .load (s.trainCfg x).startTimeout s.now }

/-- The record of a train once a STOP has been carried out (R95). -/
def stoppingRecord (s : State) (x : Train) : TrainRecord :=
  { (s.train x).leave with state := .stopping, stop := .load (s.trainCfg x).stopTimeout s.now }

/-- A train is started by the allocation of its kind. -/
def startsTrain (s : State) (k : Kind) (x : Train) : Prop :=
  (s.inState k .running).length < required s k ∧ (∀ y : Train, y.kind = k → (s.train y).state ≠ .starting) ∧ (s.startables k).head? = some x

/-- A train is stopped by the allocation of its kind. -/
def stopsTrain (s : State) (k : Kind) (x : Train) : Prop :=
  required s k < (s.inState k .running).length ∧ (s.inState k .running).getLast? = some x ∧ (s.train x).minRun.expired = true ∧
    demandOf k s.du.working ≤ s.sumMax (s.inState k .running).dropLast

theorem anyStarting_eq_false_iff (s : State) (k : Kind) :
    s.anyStarting k = false ↔ ∀ y : Train, y.kind = k → (s.train y).state ≠ .starting := by
  unfold State.anyStarting
  simp only [List.any_eq_false, decide_eq_true_eq, Kind.mem_trains]

section Allocate

variable (safe : s.SettingsSafe) (service : s.prof.mode = .service)

theorem allocate_of_less (less : (s.inState k .running).length < required s k) : s.allocate k = s.decideStart k := if_pos less

theorem allocate_of_more (more : required s k < (s.inState k .running).length) :
    s.allocate k = s.decideStop k (demandOf k s.du.working) := by
  have notLess : ¬ (s.inState k .running).length < required s k := by omega
  exact (if_neg notLess).trans (if_pos more)

include safe

theorem allocate_of_neither (noStart : ∀ x, ¬ startsTrain s k x) (noStop : ∀ x, ¬ stopsTrain s k x) : s.allocate k = s := by
  rcases Nat.lt_trichotomy (s.inState k .running).length (required s k) with less | same | more
  · rw [allocate_of_less less]
    unfold State.decideStart
    split
    · rfl
    · next x rest list =>
      have head : (s.startables k).head? = some x := by rw [list]; rfl
      have kind := merit_kind safe (mem_startables (List.mem_of_head? head)).1
      have mayNot : s.mayStart x ≠ true := fun may => by
        unfold State.mayStart at may
        simp only [Bool.and_eq_true, Bool.not_eq_true', kind] at may
        exact noStart x ⟨less, (anyStarting_eq_false_iff s k).mp may.1.2, head⟩
      have unchanged : s.startTrain x = s := if_neg mayNot
      rw [unchanged, ite_self]
  · exact (if_neg (by unfold required at same; omega)).trans (if_neg (by unfold required at same; omega))
  · rw [allocate_of_more more]
    unfold State.decideStop
    split
    · rfl
    · next x last => exact if_neg fun ⟨expired, carries⟩ => noStop x ⟨more, last, expired, carries⟩

include service

theorem allocate_of_starts {x : Train} (idle : s.anyActive k.other = false) (starts : startsTrain s k x) :
    s.allocate k = s.setTrain x (startedRecord s x) := by
  obtain ⟨less, noneStarting, head⟩ := starts
  obtain ⟨rest, list⟩ : ∃ rest, s.startables k = x :: rest := List.head?_eq_some_iff.mp head
  obtain ⟨listed, startable⟩ := mem_startables (s := s) (k := k) (x := x) (by rw [list]; exact List.mem_cons_self)
  have kind := merit_kind safe listed
  have empty : s.inState k .starting = [] := List.eq_nil_iff_forall_not_mem.mpr fun y hy => by
    obtain ⟨inOrder, starting⟩ := mem_inState hy
    exact noneStarting y (merit_kind safe inOrder) starting
  have may : s.mayStart x = true := by
    unfold State.mayStart
    rw [service, startable, kind, (anyStarting_eq_false_iff s k).mpr noneStarting, idle]
    rfl
  rw [allocate_of_less less]
  unfold State.decideStart
  rw [list, empty]
  exact if_pos may

theorem allocate_of_stops {x : Train} (stops : stopsTrain s k x) :
    s.allocate k = (s.setTrain x (stoppingRecord s x)).setSetpoint x 0 ∧ x.kind = k := by
  obtain ⟨more, last, expired, carries⟩ := stops
  obtain ⟨listed, running⟩ := mem_inState (List.mem_of_getLast? last)
  have may : s.mayStop x = true := by
    unfold State.mayStop
    rw [service, running, expired]
    rfl
  refine ⟨?_, merit_kind safe listed⟩
  rw [allocate_of_more more]
  unfold State.decideStop
  rw [last]
  exact (if_pos ⟨expired, carries⟩).trans (if_pos may)

end Allocate

theorem startTrain_train_ne {x y : Train} (other : y ≠ x) : (s.startTrain x).train y = s.train y := by
  unfold State.startTrain
  split
  · exact train_setTrain_ne s _ other
  · rfl

theorem stopTrain_train_ne {x y : Train} (other : y ≠ x) : (s.stopTrain x).train y = s.train y := by
  unfold State.stopTrain
  split
  · exact train_setTrain_ne s _ other
  · rfl

/-- The allocation of a kind leaves the trains of the other kind as they are. -/
theorem allocate_train_other (safe : s.SettingsSafe) {y : Train} (other : y.kind ≠ k) : (s.allocate k).train y = s.train y := by
  have ne {x : Train} (listed : x ∈ s.merit k) : y ≠ x := fun same => other (same ▸ merit_kind safe listed)
  unfold State.allocate State.decideStart State.decideStop
  dsimp only
  split
  · split
    · rfl
    · next x rest list =>
      split
      · exact startTrain_train_ne (ne (mem_startables (by rw [list]; exact List.mem_cons_self)).1)
      · rfl
  · split
    · split
      · rfl
      · next x last =>
        split
        · exact stopTrain_train_ne (ne (mem_inState (List.mem_of_getLast? last)).1)
        · rfl
    · rfl

/-! ### The state that the allocation of a kind works on -/

/-- The state `g` shows the allocation of the kind `k` what `m` does; where something is asked of the kind, no train of the other kind is
active, since the changeover would hold the working target at 0 (R121). -/
structure Works (m g : State) (k : Kind) : Prop where
  settings : g.settings = m.settings
  service : g.prof.mode = .service
  now : g.now = m.now
  trains : ∀ y : Train, y.kind = k → g.train y = m.train y
  idle : 0 < demandOf k g.du.working → g.anyActive k.other = false

theorem filter_installed {order : List Train} (installed q r : Train → Bool) (same : ∀ x ∈ order, q x = r x) :
    (order.filter fun x => installed x && q x) = (order.filter installed).filter r := by
  rw [List.filter_filter]
  exact List.filter_congr fun x hx => by rw [same x hx, Bool.and_comm]

theorem works_inState (safe : m.SettingsSafe) (w : Works m g k) (state : TrainState) :
    g.inState k state = ((m.merit k).filter fun x => (m.trainCfg x).installed).filter fun x => decide ((m.train x).state = state) := by
  unfold State.inState
  rw [merit_congr w.settings, ← filter_installed (fun x => (m.trainCfg x).installed) (fun x => decide ((g.train x).state = state))]
  · simp only [trainCfg_congr w.settings]
  · exact fun x listed => by rw [w.trains x (merit_kind safe listed)]

theorem works_startables (safe : m.SettingsSafe) (w : Works m g k) :
    g.startables k = ((m.merit k).filter fun x => (m.trainCfg x).installed).filter fun x =>
      decide ((m.train x).state = .stopped) && (m.train x).minDown.expired &&
        decide ((m.train x).history.length < (m.trainCfg x).startsPerDay) := by
  unfold State.startables
  rw [merit_congr w.settings, ← filter_installed (fun x => (m.trainCfg x).installed) g.startable]
  · simp only [trainCfg_congr w.settings]
  · intro x listed
    unfold State.startable
    rw [w.trains x (merit_kind safe listed), trainCfg_congr w.settings]

theorem demandOf_pos {w : Int} (pos : 0 < demandOf k w) : w ≠ 0 ∧ kindOf w = k := by
  unfold demandOf at pos
  split at pos
  · assumption
  · cases pos

/-- Nothing of the other kind is active where the working target asks for a kind (R121). -/
theorem formWorking_idle (pos : 0 < demandOf k s.formWorking.du.working) : s.anyActive k.other = false := by
  obtain ⟨some, kind⟩ := demandOf_pos pos
  rw [formWorking_working] at some kind
  split at some
  · exact absurd rfl some
  · next free =>
    rw [if_neg free] at kind
    refine Bool.eq_false_iff.mpr fun active => free ((changeoverHolds_iff s _).mpr (.inr (.inl ⟨some, ?_⟩)))
    obtain ⟨x, other, active⟩ := (anyActive_iff s _).mp active
    exact ⟨x, by rw [kind]; exact (kind_eq_other_iff _ _).mp other, active⟩

/-- With nothing asked of a kind and none of its trains active the allocation does nothing. -/
theorem allocate_of_idle (safe : s.SettingsSafe) (zero : demandOf k s.du.working = 0) (idle : s.anyActive k = false) : s.allocate k = s := by
  have none : required s k = 0 := by
    unfold required
    rw [zero]
    cases (s.allocationList k).map fun x => (s.trainCfg x).maxKw <;> rfl
  have empty : s.inState k .running = [] := List.eq_nil_iff_forall_not_mem.mpr fun y hy => by
    obtain ⟨inOrder, running⟩ := mem_inState hy
    exact Bool.eq_false_iff.mp idle ((anyActive_iff s k).mpr ⟨y, merit_kind safe inOrder, by rw [running]; rfl⟩)
  refine allocate_of_neither safe (fun x starts => ?_) fun x stops => ?_
  · have less := starts.1
    rw [none] at less
    exact absurd less (Nat.not_lt_zero _)
  · have more := stops.1
    rw [empty] at more
    exact absurd more (Nat.not_lt_zero _)

/-- The two allocations of a computing tick, each seen as the allocation of one kind. -/
theorem exists_works (safe : m.SettingsSafe) (service : m.prof.mode = .service) (fresh : m.inv.metering = .fresh) (k : Kind) :
    ∃ g, Works m g k ∧ g.du.working = m.tickParts.du.working ∧ ∀ y : Train, y.kind = k → m.tickParts.train y = (g.allocate k).train y := by
  have f : m.onlyChanges m.expireDwell.applyClamps.formWorking [.du, .slog, .gp] :=
    onlyChanges_trans (onlyChanges_mono (expireDwell_frame m) (by decide))
      (onlyChanges_trans (onlyChanges_mono (applyClamps_frame _) (by decide)) (onlyChanges_mono (formWorking_frame _) (by decide)))
  have idle (k : Kind) (pos : 0 < demandOf k m.expireDwell.applyClamps.formWorking.du.working) :
      m.expireDwell.applyClamps.formWorking.anyActive k.other = false := formWorking_idle (s := m.expireDwell.applyClamps) pos
  obtain ⟨kw, du⟩ := allocated_du m.expireDwell
  have working : m.expireDwell.applyClamps.formWorking.du.working = m.tickParts.du.working := by
    rw [tickParts_du_of_computing service fresh, du]
  have trc := tickParts_trc_of_computing service fresh
  unfold allocated at trc
  generalize m.expireDwell.applyClamps.formWorking = w at f idle working trc
  have safe' : w.SettingsSafe := settingsSafe_congr (frame_settings f) safe
  have same (y : Train) : w.train y = m.train y := train_congr (frame_trc f) y
  have h := allocate_frame w .compressor
  have next : (w.allocate .compressor).SettingsSafe := settingsSafe_congr (frame_settings h) safe'
  cases k with
  | compressor =>
    refine ⟨w, ⟨frame_settings f, by rw [frame_prof f]; exact service, frame_now f, fun y _ => same y, idle _⟩, working, fun y kind => ?_⟩
    rw [train_congr trc]
    exact allocate_train_other next (by rw [kind]; decide)
  | turbine =>
    obtain ⟨kw', du'⟩ := allocate_du w .compressor
    have kept : (w.allocate .compressor).du.working = w.du.working := by rw [du']
    refine ⟨w.allocate .compressor, ⟨(frame_settings h).trans (frame_settings f), by rw [frame_prof h, frame_prof f]; exact service,
      (frame_now h).trans (frame_now f), fun y kind => ?_, fun pos => ?_⟩, kept.trans working, fun y _ => train_congr trc y⟩
    · exact (allocate_train_other safe' (by rw [kind]; decide)).trans (same y)
    · rw [kept] at pos
      have rest := idle _ pos
      have zero : demandOf .compressor w.du.working = 0 := by
        obtain ⟨-, kind⟩ := demandOf_pos pos
        unfold demandOf
        exact if_neg fun both => absurd (both.2.symm.trans kind) (by decide)
      rw [allocate_of_idle safe' zero rest]
      exact rest

/-- Settles O52. -/
theorem allocationStartsAndStopsTrains : Obligations.AllocationStartsAndStopsTrains := by
  intro s safe m service fresh
  have safe : m.SettingsSafe := settingsSafe_congr (frame_settings (tickInstant_frame s)) safe
  refine ⟨m.tickParts, _, exec_dispatchTick s, takeReached_closesTick _, fun k => ?_⟩
  intro order installed running starting startable noneStarting list kw demand count fits reaches least
  obtain ⟨g, w, working, trains⟩ := exists_works safe service fresh k
  have inOrder : order = m.merit k := by cases k <;> rfl
  have isRunning : g.inState k .running = running := by rw [works_inState safe w, ← inOrder]
  have isStarting : g.inState k .starting = starting := by rw [works_inState safe w, ← inOrder]
  have isStartable : g.startables k = startable := by rw [works_startables safe w, ← inOrder]
  have isList : g.allocationList k = list := by unfold State.allocationList; rw [isRunning, isStarting, isStartable]
  have isDemand : demandOf k g.du.working = demand := (congrArg (demandOf k) working).trans (demandOf_eq k _)
  have kws (l : List Train) : (l.map fun x => (g.trainCfg x).maxKw).sum = kw l := by simp only [trainCfg_congr w.settings]; rfl
  have isCount : required g k = count := by
    unfold required
    rw [isDemand, isList]
    refine requiredCount_unique (by rw [List.length_map]; exact fits) ?_ fun j lt => ?_
    · rw [List.length_map, ← List.map_take, kws]; exact reaches
    · rw [← List.map_take, kws]; exact least j lt
  have noOther : noneStarting ↔ ∀ y : Train, y.kind = k → (g.train y).state ≠ .starting :=
    forall_congr' fun y => forall_congr' fun kind => by rw [w.trains y kind]
  have safe' : g.SettingsSafe := settingsSafe_congr w.settings safe
  have starts (x : Train) : startsTrain g k x ↔ running.length < count ∧ noneStarting ∧ startable.head? = some x := by
    unfold startsTrain; rw [isRunning, isCount, isStartable, noOther]
  have stops (x : Train) : stopsTrain g k x ↔ count < running.length ∧ running.getLast? = some x ∧ (g.train x).minRun.expired = true ∧
      demand ≤ kw running.dropLast := by
    unfold stopsTrain State.sumMax; rw [isRunning, isCount, isDemand, kws]
  clear_value running startable demand
  refine ⟨fun x rest less none head => ?_, fun x more last expired carries => ?_, fun noStart noStop y kind => ?_⟩
  · have listed : x ∈ g.startables k := by rw [isStartable, head]; exact List.mem_cons_self
    have kind : x.kind = k := merit_kind safe' (mem_startables listed).1
    have asked : 0 < demand := least 0 (Nat.zero_lt_of_lt less)
    have done := allocate_of_starts safe' w.service (w.idle (by rw [isDemand]; exact asked))
      ((starts x).mpr ⟨less, none, by rw [head]; rfl⟩)
    refine ⟨?_, fun y hy other => ?_⟩
    · rw [trains x kind, done, train_setTrain_self]
      unfold startedRecord
      rw [w.trains x kind, w.now, trainCfg_congr w.settings]
      rfl
    · rw [trains y hy, done, train_setTrain_ne g _ other, w.trains y hy]
  · have expires (kind : x.kind = k) : (g.train x).minRun.expired = true := by rw [w.trains x kind]; exact expired
    have kind : x.kind = k := merit_kind safe' (mem_inState (k := k) (state := .running) (by
      rw [isRunning]; exact List.mem_of_getLast? last)).1
    obtain ⟨done, -⟩ := allocate_of_stops safe' w.service ((stops x).mpr ⟨more, last, expires kind, carries⟩)
    refine ⟨?_, fun y hy other => ?_⟩
    · have record : (g.allocate k).train x = stoppingRecord g x := by rw [done]; exact train_setTrain_self g x _
      rw [trains x kind, record]
      unfold stoppingRecord
      rw [w.trains x kind, w.now, trainCfg_congr w.settings]
      rfl
    · have record : (g.allocate k).train y = g.train y := by rw [done]; exact train_setTrain_ne g _ other
      rw [trains y hy, record, w.trains y hy]
  · have done : g.allocate k = g := allocate_of_neither safe' (fun x start => ?_) fun x stop => ?_
    · rw [trains y kind, done, w.trains y kind]
    · obtain ⟨less, none, head⟩ := (starts x).mp start
      exact noStart ⟨less, none, fun empty => by rw [empty] at head; cases head⟩
    · have kind : x.kind = k := merit_kind safe' (mem_inState (List.mem_of_getLast? stop.2.1)).1
      obtain ⟨more, last, expired, carries⟩ := (stops x).mp stop
      exact noStop ⟨more, x, last, by rw [← w.trains x kind]; exact expired, carries⟩

end Sys2Proof.Proofs
end

section
/-! How the running trains share the target (O53). -/

namespace Sys2Proof.Proofs
open Sys2Proof Sys2Proof.Machine

variable {s t u m : State} {k : Kind}

/-- With settings loaded a merit order lists each train of its kind once. -/
theorem merit_perm (safe : s.SettingsSafe) (loaded : s.settings ≠ none) (k : Kind) : (s.merit k).Perm k.trains := by
  obtain ⟨c, loaded⟩ := Option.ne_none_iff_exists'.mp loaded
  obtain ⟨image, passed, rfl⟩ := safe c loaded
  obtain ⟨compressors, turbines⟩ := orders_of_passed passed
  unfold State.merit
  rw [cfg_of_settings loaded]
  cases k
  · exact compressors
  · exact turbines

theorem idxOf_of_place {l : List Train} {i : ℕ} {x : Train} (nodup : l.Nodup) (place : l[i]? = some x) : l.idxOf x = i := by
  obtain ⟨short, rfl⟩ := List.getElem?_eq_some_iff.mp place
  exact nodup.idxOf_getElem i short

section Loaded

variable (safe : s.SettingsSafe) (loaded : s.settings ≠ none)
include safe loaded

theorem mem_sharers {x : Train} : x ∈ s.sharers k ↔ (s.train x).state = .running ∧ x.kind = k := by
  unfold State.sharers
  rw [List.mem_filter, (merit_perm safe loaded k).mem_iff, Kind.mem_trains, decide_eq_true_iff, and_comm]

theorem sharers_nodup : (s.sharers k).Nodup := by
  unfold State.sharers
  exact List.Nodup.filter _ ((merit_perm safe loaded k).nodup_iff.mpr (by cases k <;> decide))

/-- The share of the train at a place among the sharers (R127). -/
theorem share_of_place {i : ℕ} {x : Train} (place : (s.sharers x.kind)[i]? = some x) :
    s.share x = s.du.target.natAbs / (s.sharers x.kind).length + (if i < s.du.target.natAbs % (s.sharers x.kind).length then 1 else 0) := by
  unfold State.share
  dsimp only
  rw [idxOf_of_place (sharers_nodup safe loaded) place]

end Loaded

/-- The trains that share the target, in merit order: none while it is 0. -/
def sharing (s : State) : List Train := if s.du.target = 0 then [] else s.sharers (kindOf s.du.target)

theorem shares_iff (safe : s.SettingsSafe) (loaded : s.settings ≠ none) (x : Train) : s.shares x = true ↔ x ∈ sharing s := by
  unfold State.shares sharing
  by_cases zero : s.du.target = 0
  · simp [zero]
  · rw [if_neg zero, mem_sharers safe loaded]
    rw [Bool.and_eq_true, Bool.and_eq_true, decide_eq_true_iff, decide_eq_true_iff, decide_eq_true_iff]
    exact ⟨fun ⟨⟨running, _⟩, kind⟩ => ⟨running, kind.symm⟩, fun ⟨running, kind⟩ => ⟨⟨running, zero⟩, kind.symm⟩⟩

theorem kind_of_sharing (safe : s.SettingsSafe) (loaded : s.settings ≠ none) {x : Train} (shares : x ∈ sharing s) :
    sharing s = s.sharers x.kind := by
  unfold sharing at shares ⊢
  by_cases zero : s.du.target = 0
  · rw [if_pos zero] at shares; cases shares
  · rw [if_neg zero] at shares ⊢
    rw [((mem_sharers safe loaded).mp shares).2]

theorem mem_sharing_iff (safe : s.SettingsSafe) (loaded : s.settings ≠ none) (x : Train) :
    x ∈ sharing s ↔ (s.train x).state = .running ∧
      ((0 < s.du.target ∧ x.kind = .turbine) ∨ (s.du.target < 0 ∧ x.kind = .compressor)) := by
  unfold sharing kindOf
  rcases Int.lt_trichotomy s.du.target 0 with negative | zero | positive
  · rw [if_neg (by omega), if_neg (by omega), mem_sharers safe loaded]
    simp [negative, Int.not_lt.mpr negative.le]
  · simp [zero]
  · rw [if_neg (by omega), if_pos positive, mem_sharers safe loaded]
    simp [positive, Int.not_lt.mpr positive.le]

theorem setpointFor_of_sharing (safe : s.SettingsSafe) (loaded : s.settings ≠ none) {i : ℕ} {x : Train} (place : (sharing s)[i]? = some x) :
    s.share x = s.du.target.natAbs / (sharing s).length + (if i < s.du.target.natAbs % (sharing s).length then 1 else 0) ∧
      s.setpointFor x = max (s.trainCfg x).minStable (min (s.trainCfg x).maxKw (s.share x)) := by
  have shares := List.mem_of_getElem? place
  refine ⟨?_, if_pos ((shares_iff safe loaded x).mpr shares)⟩
  rw [kind_of_sharing safe loaded shares] at place ⊢
  exact share_of_place safe loaded place

theorem setpointFor_of_not_sharing (safe : s.SettingsSafe) (loaded : s.settings ≠ none) {x : Train} (not : x ∉ sharing s)
    (running : (s.train x).state = .running) : s.setpointFor x = (s.trainCfg x).minStable :=
  (if_neg fun shares => not ((shares_iff safe loaded x).mp shares)).trans (if_pos running)

/-- Some share was raised to min stable and the RUNNING trains' setpoints exceed the target (R127). -/
theorem minLoad_iff (safe : s.SettingsSafe) (loaded : s.settings ≠ none) :
    s.minLoad = true ↔ (∃ i x, (sharing s)[i]? = some x ∧
        s.du.target.natAbs / (sharing s).length + (if i < s.du.target.natAbs % (sharing s).length then 1 else 0) < (s.trainCfg x).minStable) ∧
      s.du.target.natAbs < ((Train.all.filter fun x => decide ((s.train x).state = .running)).map s.setpointFor).sum := by
  unfold State.minLoad
  rw [Bool.and_eq_true, decide_eq_true_iff, List.any_eq_true]
  refine and_congr_left fun _ => ⟨fun ⟨x, _, raised⟩ => ?_, fun ⟨i, x, place, low⟩ => ?_⟩
  · obtain ⟨shares, low⟩ := Bool.and_eq_true_iff.mp raised
    obtain ⟨i, place⟩ := List.mem_iff_getElem?.mp ((shares_iff safe loaded x).mp shares)
    rw [decide_eq_true_iff, (setpointFor_of_sharing safe loaded place).1] at low
    exact ⟨i, x, place, low⟩
  · refine ⟨x, by cases x <;> decide, Bool.and_eq_true_iff.mpr ⟨(shares_iff safe loaded x).mpr (List.mem_of_getElem? place), ?_⟩⟩
    rw [decide_eq_true_iff, (setpointFor_of_sharing safe loaded place).1]
    exact low

/-- Settles O53. -/
theorem setpointsShareTheTarget : Obligations.SetpointsShareTheTarget := by
  intro s safe loaded m service fresh
  have h := frame_settings (tickInstant_frame s)
  have f : m.onlyChanges (allocated m.expireDwell).formTarget computeParts :=
    onlyChanges_trans (onlyChanges_mono (expireDwell_frame m) (by decide))
      (onlyChanges_trans (allocated_frame _) (onlyChanges_mono (formTarget_frame _) (by decide)))
  have du := tickParts_du_of_computing service fresh
  have trc := (tickParts_trc_of_computing service fresh).trans (frame_trc (formTarget_frame _)).symm
  have log := tickParts_slog_of_computing service fresh
  have target : m.tickParts.du.target = (allocated m.expireDwell).formTarget.du.target := by rw [du, formTarget_du]
  have setpoint (x : Train) : m.tickParts.du.setpoint.get x = (allocated m.expireDwell).formTarget.setpointFor x := by
    rw [du]; exact PerTrain.get_of _ x
  refine ⟨m.tickParts, _, exec_dispatchTick s, takeReached_closesTick _, ?_⟩
  clear du
  generalize (allocated m.expireDwell).formTarget = u at f trc log target setpoint
  generalize m.tickParts = n at trc log target setpoint
  have train (x : Train) : u.train x = n.train x := (train_congr trc x).symm
  have cfg (x : Train) : u.trainCfg x = m.trainCfg x := trainCfg_congr (frame_settings f) x
  have safe : u.SettingsSafe := settingsSafe_congr ((frame_settings f).trans h) safe
  have loaded : u.settings ≠ none := by rw [(frame_settings f).trans h]; exact loaded
  intro d order sharers share sum raised
  have isTarget : u.du.target = d := target.symm
  have isSharers : sharing u = sharers := by
    have isOrder : u.merit (kindOf d) = order := by
      rw [merit_congr (frame_settings f)]
      unfold kindOf
      by_cases positive : 0 < d
      · rw [if_pos positive]; exact (if_pos positive).symm
      · rw [if_neg positive]; exact (if_neg positive).symm
    unfold sharing State.sharers
    rw [isTarget, isOrder]
    simp only [train]
    rfl
  have isSum : ((Train.all.filter fun x => decide ((u.train x).state = .running)).map u.setpointFor).sum = sum := by
    have each : u.setpointFor = fun x => n.du.setpoint.get x := funext fun x => (setpoint x).symm
    rw [each]
    simp only [train]
    rfl
  have isRaised : (∃ i x, (sharing u)[i]? = some x ∧
      u.du.target.natAbs / (sharing u).length + (if i < u.du.target.natAbs % (sharing u).length then 1 else 0) < (u.trainCfg x).minStable) ↔
      raised := by
    rw [isSharers, isTarget]
    simp only [cfg]
    rfl
  refine ⟨fun x => ?_, fun i x place => ?_, fun x not running => ?_, fun x running => ?_, fun x idle => ?_, fun r opened => ?_⟩
  · rw [← isSharers, mem_sharing_iff safe loaded, train, isTarget]
  · obtain ⟨isShare, isSetpoint⟩ := setpointFor_of_sharing safe loaded (isSharers ▸ place)
    rw [isSharers, isTarget] at isShare
    rw [setpoint, isSetpoint, isShare, cfg]
  · rw [setpoint, setpointFor_of_not_sharing safe loaded (isSharers ▸ not) (by rw [train]; exact running), cfg]
  · rw [setpoint, ← cfg]
    exact (setpointFor_bounds safe x).1 (by rw [train]; exact running)
  · rw [setpoint]
    exact (setpointFor_bounds safe x).2 (by rw [train]; exact idle)
  · refine ⟨_, by rw [log, opened]; rfl, ?_⟩
    rw [← isRaised, ← isSum, ← isTarget, ← minLoad_iff safe loaded]
    unfold State.recordSecond markedRecord
    simp

end Sys2Proof.Proofs
end

section
/-! Trains that enter or leave the unavailable set one after another: what their moves add up to (R111), for the installed flags of a passed
image (R86) and the releases on entry to SERVICE (R107). -/

namespace Sys2Proof.Proofs
open Sys2Proof Sys2Proof.Machine

variable {s t u : State}

/-! ### The trade port -/

/-- Between `s` and `t` the trade port changes in its causes alone, and the flags of just the causes in `raised` are set (R184). -/
structure Trade (s t : State) (raised : Cause → Prop) : Prop where
  only : CausesOnly s t .tp
  flags : ∀ c, s.flagged t .tp c (raised c)

theorem Trade.trans {p q : Cause → Prop} (h : Trade s t p) (g : Trade t u q) : Trade s u fun c => p c ∨ q c :=
  ⟨h.only.trans g.only, fun c => flagged_trans (h.flags c) (g.flags c)⟩

theorem Trade.congr {p q : Cause → Prop} (h : Trade s t p) (same : ∀ c, p c ↔ q c) : Trade s t q :=
  ⟨h.only, fun c => flagged_congr (h.flags c) (same c)⟩

theorem trade_of_same (same : t.port .tp = s.port .tp) : Trade s t fun _ => False :=
  ⟨causesOnly_of_same same, fun _ => flagged_of_causes (by rw [same])⟩

theorem trade_of_raisedOnly {c : Cause} (h : s.raisedOnly t .tp c) : Trade s t (· = c) := by
  refine ⟨causesOnly_of_raisedOnly h, fun d => ?_⟩
  by_cases same : d = c
  · subst same
    exact flagged_congr (flagged_of_raisedOnly h) (iff_of_true trivial rfl)
  · exact flagged_congr (flagged_of_raisedOnly_other h (Ne.symm same)) (iff_of_false id same)

/-! ### The number of changes of availability (R111) -/

/-- Between `s` and `t` the availability of trains changed `n` times. -/
structure Moves (s t : State) (n : ℕ) : Prop where
  frame : s.onlyChanges t [.trc, .du, .prj, .tp]
  generation : t.trc.generation = s.trc.generation + BitVec.ofNat 32 n
  trade : Trade s t fun c => c = .capacity ∧ 0 < n
  requests : ∀ base k, s.afterRequests base k → t.afterRequests base (k + n)

theorem Moves.trans {a b : ℕ} (h : Moves s t a) (g : Moves t u b) : Moves s u (a + b) where
  frame := onlyChanges_trans h.frame g.frame
  generation := by rw [g.generation, h.generation, BitVec.add_assoc, ← BitVec.ofNat_add]
  trade := (h.trade.trans g.trade).congr fun c => by
    rw [← and_or_left]
    exact and_congr_right fun _ => by omega
  requests base k before := by
    rw [← Nat.add_assoc]
    exact g.requests base (k + a) (h.requests base k before)

theorem moves_zero (frame : s.onlyChanges t [.trc, .du]) (generation : t.trc.generation = s.trc.generation) : Moves s t 0 where
  frame := onlyChanges_mono frame (by decide)
  generation := by rw [generation]; exact (BitVec.add_zero _).symm
  trade := (trade_of_same (port_of_onlyChanges frame .tp (by decide))).congr fun _ => by simp
  requests _ _ before := afterRequests_congr before (frame_prj frame) (by rw [frame_inv frame]) (by rw [frame_tb frame])

theorem moves_changeAvailability (s : State) : Moves s s.changeAvailability 1 := by
  have f := changeAvailability_frame s
  refine ⟨onlyChanges_mono f (by decide), by rw [changeAvailability_trc]; rfl, ?_, fun base k before => ?_⟩
  · have raised : s.raisedOnly s.changeAvailability .tp .capacity := (changeAvailability_port s .tp).trans (port_raise s .tp .capacity)
    exact (trade_of_raisedOnly raised).congr fun _ => by simp
  · exact afterRequests_succ before changeAvailability_review (by rw [frame_inv f]) (by rw [frame_tb f])

/-! ### One train -/

/-- Between `v` and `w` the train `x` comes to the record `r` and the setpoint `kw`, its availability changes if `moved` says so, and nothing
happens to any other train. -/
structure TrainStep (v w : State) (x : Train) (moved : Bool) (r : TrainRecord) (kw : ℕ) : Prop where
  moves : Moves v w moved.toNat
  record : w.train x = r
  setpoint : w.du.setpoint.get x = kw
  others : ∀ y, y ≠ x → w.train y = v.train y ∧ w.du.setpoint.get y = v.du.setpoint.get y
  rest : w.du = { v.du with setpoint := w.du.setpoint }

/-- The trains worked so far each come to their own record and setpoint. -/
structure TrainsWorked (s t : State) (moved : Train → Bool) (record : Train → TrainRecord) (setpoint : Train → ℕ) (done : List Train) :
    Prop where
  moves : Moves s t (done.filter moved).length
  worked : ∀ x ∈ done, t.train x = record x ∧ t.du.setpoint.get x = setpoint x
  others : ∀ x, x ∉ done → t.train x = s.train x ∧ t.du.setpoint.get x = s.du.setpoint.get x
  rest : t.du = { s.du with setpoint := t.du.setpoint }

/-- Trains that are worked one after another, each from its own record alone. -/
theorem foldl_trainSteps {f : State → Train → State} {moved : Train → Bool} {record : Train → TrainRecord} {setpoint : Train → ℕ}
    (step : ∀ v x, v.settings = s.settings → v.train x = s.train x → v.du.setpoint.get x = s.du.setpoint.get x →
      TrainStep v (f v x) x (moved x) (record x) (setpoint x)) :
    TrainsWorked s (Train.all.foldl f s) moved record setpoint Train.all := by
  refine foldl_trains (I := fun done v => TrainsWorked s v moved record setpoint done) ?_ fun done x v fresh _ before => ?_
  · exact ⟨moves_zero (onlyChanges_refl s _) rfl, nofun, fun _ _ => ⟨rfl, rfl⟩, rfl⟩
  · obtain ⟨sameRecord, sameSetpoint⟩ := before.others x fresh
    have one := step v x (frame_settings before.moves.frame) sameRecord sameSetpoint
    refine ⟨?_, fun y mem => ?_, fun y out => ?_, ?_⟩
    · have count : ((done ++ [x]).filter moved).length = (done.filter moved).length + (moved x).toNat := by
        rw [List.filter_append, List.length_append]
        cases is : moved x <;> simp [is]
      rw [count]
      exact before.moves.trans one.moves
    · rcases List.mem_append.mp mem with old | new
      · obtain ⟨r, kw⟩ := one.others y fun same => fresh (same ▸ old)
        exact ⟨r.trans (before.worked y old).1, kw.trans (before.worked y old).2⟩
      · obtain rfl := List.mem_singleton.mp new
        exact ⟨one.record, one.setpoint⟩
    · rw [List.mem_append, List.mem_singleton, not_or] at out
      obtain ⟨r, kw⟩ := one.others y out.2
      exact ⟨r.trans (before.others y out.1).1, kw.trans (before.others y out.1).2⟩
    · rw [one.rest, before.rest]

theorem trainStep_same (v : State) (x : Train) : TrainStep v v x false (v.train x) (v.du.setpoint.get x) :=
  ⟨moves_zero (onlyChanges_refl v _) rfl, rfl, rfl, fun _ _ => ⟨rfl, rfl⟩, rfl⟩

theorem trainStep_setTrain (v : State) (x : Train) (r : TrainRecord) : TrainStep v (v.setTrain x r) x false r (v.du.setpoint.get x) :=
  ⟨moves_zero (onlyChanges_mono (setTrain_frame v x r) (by decide)) rfl, train_setTrain_self v x r, rfl,
    fun _ other => ⟨train_setTrain_ne v r other, rfl⟩, rfl⟩

theorem trainStep_setSetpoint {v w : State} {x : Train} {r : TrainRecord} {kw : ℕ} (h : TrainStep v w x false r kw) (newKw : ℕ) :
    TrainStep v (w.setSetpoint x newKw) x false r newKw where
  moves := h.moves.trans (moves_zero (t := w.setSetpoint x newKw) (onlyChanges_mono (withDu_frame w _) (by decide)) rfl)
  record := h.record
  setpoint := setpoint_setSetpoint_self w x newKw
  others y other := ⟨(h.others y other).1, (setpoint_setSetpoint_ne w newKw other).trans (h.others y other).2⟩
  rest := by
    have rest := h.rest
    unfold State.setSetpoint
    rw [State.withDu_du, rest]

theorem trainStep_changeAvailability {v w : State} {x : Train} {r : TrainRecord} {kw : ℕ} (h : TrainStep v w x false r kw) :
    TrainStep v w.changeAvailability x true r kw where
  moves := by
    have both := h.moves.trans (moves_changeAvailability w)
    exact both
  record := (train_changeAvailability w x).trans h.record
  setpoint := by rw [du_changeAvailability]; exact h.setpoint
  others y other := by rw [train_changeAvailability, du_changeAvailability]; exact h.others y other
  rest := by rw [du_changeAvailability]; exact h.rest

/-! ### The installed flags (R86) -/

/-- The record of a train once the installed flag of a passed image has acted on it. -/
def flaggedRecord (installed : Bool) (r : TrainRecord) : TrainRecord :=
  if installed then { r with state := if r.state = .absent then .offline else r.state }
  else { TrainRecord.afterReset r.lineHigh with sensitivity := r.sensitivity }

/-- A train is made ABSENT from an available state. -/
def isRemoved (installed : Bool) (r : TrainRecord) : Bool := !installed && (decide (r.state = .stopped) || r.state.active)

theorem applyInstalled_step (v : State) (x : Train) :
    TrainStep v (v.applyInstalled x) x (isRemoved (v.trainCfg x).installed (v.train x)) (flaggedRecord (v.trainCfg x).installed (v.train x))
      (if (v.trainCfg x).installed then v.du.setpoint.get x else 0) := by
  unfold State.applyInstalled flaggedRecord isRemoved
  cases (v.trainCfg x).installed with
  | true =>
    by_cases absent : (v.train x).state = .absent
    · rw [if_pos rfl, if_pos rfl, if_pos absent, if_pos absent]
      exact trainStep_setTrain v x _
    · rw [if_pos rfl, if_pos rfl, if_neg absent, if_neg absent]
      exact trainStep_same v x
  | false =>
    have gone := trainStep_setSetpoint
      (trainStep_setTrain v x { TrainRecord.afterReset (v.train x).lineHigh with sensitivity := (v.train x).sensitivity }) 0
    have available : (decide ((v.train x).state = .stopped) || (v.train x).state.active) = !(v.train x).state.unavailable := by
      cases (v.train x).state <;> rfl
    rw [available]
    show TrainStep v (v.makeAbsent x) x (!(v.train x).state.unavailable) _ 0
    unfold State.makeAbsent
    dsimp only
    cases (v.train x).state.unavailable with
    | true => exact gone
    | false => exact trainStep_changeAvailability gone

theorem applyInstalled_worked (s : State) :
    TrainsWorked s (Train.all.foldl State.applyInstalled s) (fun x => isRemoved (s.trainCfg x).installed (s.train x))
      (fun x => flaggedRecord (s.trainCfg x).installed (s.train x))
      (fun x => if (s.trainCfg x).installed then s.du.setpoint.get x else 0) Train.all :=
  foldl_trainSteps fun v x settings record setpoint => by
    have step := applyInstalled_step v x
    rw [trainCfg_congr settings, record, setpoint] at step
    exact step

/-! ### The releases (R107) -/

theorem tryRelease_step (v : State) (x : Train) :
    TrainStep v (v.tryRelease x) x (v.train x).releasable (if (v.train x).releasable then released (v.train x) else v.train x)
      (v.du.setpoint.get x) := by
  unfold State.tryRelease
  dsimp only
  cases (v.train x).releasable with
  | true => exact trainStep_changeAvailability (trainStep_setTrain v x _)
  | false => exact trainStep_same v x

theorem tryRelease_worked (s : State) :
    TrainsWorked s (Train.all.foldl State.tryRelease s) (fun x => (s.train x).releasable)
      (fun x => if (s.train x).releasable then released (s.train x) else s.train x) (fun x => s.du.setpoint.get x) Train.all :=
  foldl_trainSteps fun v x _ record setpoint => by
    have step := tryRelease_step v x
    rw [record, setpoint] at step
    exact step

end Sys2Proof.Proofs
end

section
/-! The stages of a passing check (O31): the account, the length of the interval, the default check mode, the setpoints, the link timer and
the mode. -/

namespace Sys2Proof.Proofs
open Sys2Proof Sys2Proof.Machine

variable {s t u v w : State}

/-! ### The account (R2) -/

/-- The Inventory Unit's values once settings have been loaded. -/
def heldAccount (c : Settings) (i : Inventory) : Inventory :=
  { i with
    mass := min i.mass c.lastMass
    heat := PerTier.of fun k => min (i.heat.get k) (c.tiers.get k).capacity
    massBase := PerTrain.of fun x => if (c.trains.get x).installed then i.massBase.get x else none }

/-- Loading settings changes the mass or a heat. -/
def accountClamped (c : Settings) (i : Inventory) : Prop := (heldAccount c i).mass ≠ i.mass ∨ (heldAccount c i).heat ≠ i.heat

theorem loadInventory_of_clamped {c : Settings} (clamped : accountClamped c s.inv) :
    s.loadInventory c = ((s.withInv (heldAccount c s.inv)).raise .pp .clamp).markRecord .setClamped :=
  if_pos (by rw [Bool.or_eq_true, decide_eq_true_iff, decide_eq_true_iff]; exact clamped)

theorem loadInventory_of_unclamped {c : Settings} (same : ¬ accountClamped c s.inv) : s.loadInventory c = s.withInv (heldAccount c s.inv) :=
  if_neg (by rw [Bool.or_eq_true, decide_eq_true_iff, decide_eq_true_iff]; exact same)

theorem loadInventory_inv (s : State) (c : Settings) : (s.loadInventory c).inv = heldAccount c s.inv := by
  by_cases clamped : accountClamped c s.inv
  · rw [loadInventory_of_clamped clamped, frame_inv (markRecord_frame _ _)]; rfl
  · rw [loadInventory_of_unclamped clamped]; rfl

theorem loadInventory_slog (s : State) (c : Settings) :
    (accountClamped c s.inv → (s.loadInventory c).slog = { s.slog with
      current := s.slog.current.map fun r => { r with flags := { r.flags with clamped := true } } }) ∧
    (¬ accountClamped c s.inv → (s.loadInventory c).slog = s.slog) := by
  refine ⟨fun clamped => ?_, fun same => ?_⟩
  · rw [loadInventory_of_clamped clamped, markRecord_slog]; rfl
  · rw [loadInventory_of_unclamped same]; rfl

theorem loadInventory_pp (s : State) (c : Settings) :
    (accountClamped c s.inv → s.raisedOnly (s.loadInventory c) .pp .clamp) ∧
    (¬ accountClamped c s.inv → (s.loadInventory c).port .pp = s.port .pp) := by
  refine ⟨fun clamped => ?_, fun same => ?_⟩
  · unfold State.raisedOnly
    rw [loadInventory_of_clamped clamped, port_of_onlyChanges (markRecord_frame _ _) .pp (by decide), port_raise]; rfl
  · rw [loadInventory_of_unclamped same]; rfl

/-! ### The length of the interval (R40) -/

/-- The milliseconds have reached a new length. -/
def lengthReached (s : State) (old : Option ℕ) : Prop :=
  ∃ k, s.tb.clock = some k ∧ old ≠ some s.cfg.intervalLength ∧ s.cfg.intervalLength * 60000 ≤ k.millis

theorem applyLength_of_reached {old : Option ℕ} (reached : lengthReached s old) : s.applyLength old = s.boundary 0 := by
  obtain ⟨k, set, both⟩ := reached
  unfold State.applyLength
  rw [set]
  exact if_pos both

theorem applyLength_of_not {old : Option ℕ} (not : ¬ lengthReached s old) : s.applyLength old = s := by
  unfold State.applyLength
  split
  · rfl
  · next k set => exact if_neg fun both => not ⟨k, set, both⟩

theorem boundary_trade {k : Clock} (set : s.tb.clock = some k) :
    Trade s (s.boundary 0) fun c => c = .record ∧ s.slog.current ≠ none := by
  have record := (boundary_takesBoundary set 0).record
  have only := boundary_causesOnly set 0
  by_cases closed : s.slog.current = none
  · rw [if_pos closed] at record
    unfold CausesOnly at only
    rw [record] at only
    exact (trade_of_same only).congr fun c => iff_of_false id fun both => both.2 closed
  · rw [if_neg closed] at record
    unfold CausesOnly at only
    rw [record] at only
    exact (trade_of_raisedOnly only).congr fun c => (and_iff_left closed).symm

theorem applyLength_trade (s : State) (old : Option ℕ) :
    Trade s (s.applyLength old) fun c => c = .record ∧ lengthReached s old ∧ s.slog.current ≠ none := by
  by_cases reached : lengthReached s old
  · obtain ⟨k, set, -⟩ := id reached
    rw [applyLength_of_reached reached]
    exact (boundary_trade set).congr fun c => by simp [reached]
  · rw [applyLength_of_not reached]
    exact (trade_of_same rfl).congr fun c => by simp [reached]

theorem applyLength_requests (s : State) (old : Option ℕ) :
    (lengthReached s old → (s.applyLength old).afterRequests s.prj 1) ∧
    (¬ lengthReached s old → (s.applyLength old).afterRequests s.prj 0) := by
  refine ⟨fun reached => ?_, fun not => ?_⟩
  · obtain ⟨k, set, -⟩ := id reached
    rw [applyLength_of_reached reached]
    exact afterRequests_one (boundary_takesBoundary set 0).review
  · rw [applyLength_of_not not]
    exact afterRequests_zero s

/-! ### The default check mode (R65) -/

/-- The engine's base once the default check mode has been applied. -/
def defaultedBase (m : CheckMode) (base : Engine) : Engine :=
  { base with checkMode := if base.defaultApplied then base.checkMode else m, defaultApplied := true }

theorem defaultedBase_of_applied {m : CheckMode} {e : Engine} (applied : e.defaultApplied = true) : defaultedBase m e = e := by
  unfold defaultedBase
  rw [if_pos applied, ← applied]

theorem applyDefaultMode_prj (s : State) (m : CheckMode) : (s.applyDefaultMode m).prj = defaultedBase m s.prj := by
  unfold State.applyDefaultMode
  split
  · next applied => exact (defaultedBase_of_applied applied).symm
  · next fresh => unfold defaultedBase; rw [if_neg fresh]; rfl

theorem applyDefaultMode_requests {base : Engine} {n : ℕ} (m : CheckMode) (h : s.afterRequests base n) :
    (s.applyDefaultMode m).afterRequests (defaultedBase m base) n := by
  have f := applyDefaultMode_frame s m
  have prj := applyDefaultMode_prj s m
  obtain ⟨first, starts, waits⟩ := h
  unfold State.afterRequests
  rw [prj, frame_inv f, frame_tb f]
  refine ⟨fun zero => by rw [first zero], fun more idle anchored c set => ?_, fun more cannot => ?_⟩
  · obtain ⟨snap, clocked, same⟩ := starts more idle anchored c set
    exact ⟨snap, clocked, by rw [same]; rfl⟩
  · rw [waits more cannot]
    rfl

/-! ### The setpoints and the link timer (R114, R134) -/

theorem clampSetpoints_setpoint (s : State) (x : Train) :
    s.clampSetpoints.du.setpoint.get x =
      if (s.train x).state = .running then max (s.trainCfg x).minStable (min (s.trainCfg x).maxKw (s.du.setpoint.get x))
      else s.du.setpoint.get x := PerTrain.get_of _ x

theorem firstLinkLoad_rsv (s : State) (settings : Option Settings) :
    (settings = none ∧ s.rsv.link = .linked →
      (s.firstLinkLoad settings.isSome).rsv = { s.rsv with linkTimer := some (s.now + s.cfg.linkTimeout) }) ∧
    (¬ (settings = none ∧ s.rsv.link = .linked) → (s.firstLinkLoad settings.isSome).rsv = s.rsv) := by
  unfold State.firstLinkLoad
  refine ⟨fun first => ?_, fun later => ?_⟩
  · rw [if_pos (by simp [first])]; rfl
  · rw [if_neg (by simpa using later)]

/-! ### The mode (R161, R168) -/

theorem setMode_trade (s : State) (m : Mode) : Trade s (s.setMode m) (· = .mode) :=
  trade_of_raisedOnly (by unfold State.raisedOnly; rw [setMode_port, if_neg (by decide)])

/-- The record of a train with a trip sensitivity taken (R102). -/
def sensedRecord (sensitivity : Sensitivity) (r : TrainRecord) : TrainRecord := { r with sensitivity := sensitivity }

theorem takeSensitivities_train (s : State) (x : Train) :
    s.takeSensitivities.train x = sensedRecord (s.prof.working.sensitivity x) (s.train x) := by
  unfold State.takeSensitivities State.train
  rw [State.withTrc_trc, PerTrain.get_of]
  rfl

theorem takeSensitivities_frame (s : State) : s.onlyChanges s.takeSensitivities [.trc] := withTrc_frame s _

/-- What a change of mode leaves between `v` and `w`: the records it comes to, the number of releases and whether it asks for a review
itself. -/
structure ModeTaken (v w : State) (changes : Prop) (record : Train → TrainRecord) (releases reviews : ℕ) : Prop where
  frame : v.onlyChanges w [.prof, .trc, .du, .prj, .tp, .gp]
  record : ∀ x, w.train x = record x
  setpoint : ∀ x, w.du.setpoint.get x = v.du.setpoint.get x
  rest : w.du = { v.du with setpoint := w.du.setpoint }
  generation : w.trc.generation = v.trc.generation + BitVec.ofNat 32 releases
  trade : Trade v w fun c => (c = .mode ∧ changes) ∨ (c = .capacity ∧ 0 < releases)
  gridChanged : changes → v.raisedOnly w .gp .mode
  gridSame : ¬ changes → w.port .gp = v.port .gp
  requests : ∀ base k, v.afterRequests base k → w.afterRequests base (k + releases + reviews)

theorem modeTaken_same (v : State) : ModeTaken v v False v.train 0 0 where
  frame := onlyChanges_refl v _
  record _ := rfl
  setpoint _ := rfl
  rest := rfl
  generation := (BitVec.add_zero _).symm
  trade := (trade_of_same rfl).congr fun _ => by simp
  gridChanged := False.elim
  gridSame _ := rfl
  requests _ _ before := before

theorem modeTaken_setMode (v : State) (m : Mode) : ModeTaken v (v.setMode m) True v.train 0 0 where
  frame := onlyChanges_mono (setMode_frame v m) (by decide)
  record _ := rfl
  setpoint _ := rfl
  rest := rfl
  generation := (BitVec.add_zero _).symm
  trade := (setMode_trade v m).congr fun _ => by simp
  gridChanged _ := by unfold State.raisedOnly; rw [setMode_port, if_neg (by decide)]
  gridSame no := absurd trivial no
  requests _ _ before := afterRequests_congr before (frame_prj (setMode_frame v m)) rfl rfl

/-- The record of a train after ENTER SERVICE's sensitivities and release test (R102, R107). -/
def enteredRecord (sensitivity : Sensitivity) (r : TrainRecord) : TrainRecord :=
  if (sensedRecord sensitivity r).releasable then released (sensedRecord sensitivity r) else sensedRecord sensitivity r

theorem modeTaken_enterService (v : State) :
    ModeTaken v v.enterService True (fun x => enteredRecord (v.prof.working.sensitivity x) (v.train x))
      (Train.all.filter fun x => (sensedRecord (v.prof.working.sensitivity x) (v.train x)).releasable).length 1 ∧
    v.enterService.prof = { v.prof with mode := .service, background := some (v.now + 3600) } := by
  have start := modeTaken_setMode v .service
  have worked := tryRelease_worked (v.setMode .service).takeSensitivities
  have sense (x : Train) : (v.setMode .service).takeSensitivities.train x = sensedRecord (v.prof.working.sensitivity x) (v.train x) :=
    takeSensitivities_train (v.setMode .service) x
  simp only [sense] at worked
  have taken := takeSensitivities_frame (v.setMode .service)
  have generation : (v.setMode .service).takeSensitivities.trc.generation = (v.setMode .service).trc.generation := rfl
  have entered : v.enterService =
      (Train.all.foldl State.tryRelease (v.setMode .service).takeSensitivities).requestReview.withProf
        { (Train.all.foldl State.tryRelease (v.setMode .service).takeSensitivities).requestReview.prof with
          background := some ((Train.all.foldl State.tryRelease (v.setMode .service).takeSensitivities).requestReview.now + 3600) } := rfl
  have mode : (v.setMode .service).prof = { v.prof with mode := .service } := rfl
  have count : (v.setMode .service).now = v.now := rfl
  rw [entered]
  generalize v.setMode .service = a at start worked taken generation mode count
  generalize a.takeSensitivities = b at worked taken generation
  generalize Train.all.foldl State.tryRelease b = d at worked
  have f := worked.moves.frame
  have g := requestReview_frame d
  have all (x : Train) : x ∈ Train.all := by cases x <;> decide
  have before : v.onlyChanges d [.prof, .trc, .du, .prj, .tp, .gp] :=
    onlyChanges_trans start.frame (onlyChanges_trans (onlyChanges_mono taken (by decide)) (onlyChanges_mono f (by decide)))
  refine ⟨⟨?_, fun x => ?_, fun x => ?_, ?_, ?_, ?_, fun _ => ?_, fun no => absurd trivial no, fun base k known => ?_⟩, ?_⟩
  · exact onlyChanges_trans before (onlyChanges_trans (onlyChanges_mono g (by decide)) (onlyChanges_mono (withProf_frame _ _) (by decide)))
  · exact (train_congr (frame_trc g) x).trans (worked.worked x (all x)).1
  · have same : d.requestReview.du = d.du := frame_du g
    show d.requestReview.du.setpoint.get x = _
    rw [same, (worked.worked x (all x)).2, frame_du taken, start.setpoint]
  · have same : d.requestReview.du = d.du := frame_du g
    show d.requestReview.du = { v.du with setpoint := d.requestReview.du.setpoint }
    rw [same, worked.rest, frame_du taken, start.rest]
  · show d.requestReview.trc.generation = _
    rw [frame_trc g, worked.moves.generation, generation, start.generation]
    exact congrArg (· + _) (BitVec.add_zero _)
  · have quiet : Trade a b fun _ => False := trade_of_same (port_of_onlyChanges taken .tp (by decide))
    have last : Trade d d.requestReview fun _ => False := trade_of_same (port_of_onlyChanges g .tp (by decide))
    have whole := ((start.trade.trans quiet).trans worked.moves.trade).trans last
    exact ⟨whole.only, fun c => flagged_congr (whole.flags c) (by simp)⟩
  · have grid : d.requestReview.port .gp = a.port .gp :=
      (port_of_onlyChanges g .gp (by decide)).trans ((port_of_onlyChanges f .gp (by decide)).trans (port_of_onlyChanges taken .gp (by decide)))
    exact grid.trans (start.gridChanged trivial)
  · have moved := worked.moves.requests base k (afterRequests_congr (start.requests base k known) (frame_prj taken)
      (by rw [frame_inv taken]) (by rw [frame_tb taken]))
    have review : d.reviewRequested d.requestReview := reviewRequested_requestReview (u := d) rfl (onlyChanges_refl _ [])
    have next := afterRequests_succ moved review (by rw [frame_inv g]) (by rw [frame_tb g])
    exact next
  · have same : d.requestReview.prof = a.prof := (frame_prof g).trans ((frame_prof f).trans (frame_prof taken))
    have time : d.requestReview.now = a.now := (frame_now g).trans ((frame_now f).trans (frame_now taken))
    show { d.requestReview.prof with background := some (d.requestReview.now + 3600) } = _
    rw [same, time, mode, count]

/-- What a passing check does to the mode, by its purpose and the mode it finds (R161). -/
theorem modeAfterPass_taken (v : State) (purpose : Purpose) {leaves enters : Prop} [Decidable leaves] [Decidable enters]
    (isLeaves : leaves ↔ purpose = .powerUp ∧ v.prof.mode = .checking) (isEnters : enters ↔ purpose = .entry ∧ v.prof.mode = .maintenance) :
    ModeTaken v (v.modeAfterPass purpose) (leaves ∨ enters)
      (fun x => if enters then enteredRecord (v.prof.working.sensitivity x) (v.train x) else v.train x)
      (Train.all.filter fun x => decide enters && (sensedRecord (v.prof.working.sensitivity x) (v.train x)).releasable).length
      (if enters then 1 else 0) ∧
    (v.modeAfterPass purpose).prof =
      { v.prof with
        mode := if leaves then .maintenance else if enters then .service else v.prof.mode
        background := if enters then some (v.now + 3600) else v.prof.background } := by
  by_cases enter : enters
  · obtain ⟨rfl, mode⟩ := isEnters.mp enter
    have stays : ¬ leaves := fun leave => nomatch (isLeaves.mp leave).1
    have is : v.modeAfterPass .entry = v.enterService := by unfold State.modeAfterPass; rw [mode]
    have taken := modeTaken_enterService v
    simp only [is, stays, enter, if_true, if_false, or_true, decide_true, Bool.true_and]
    exact taken
  · by_cases leave : leaves
    · obtain ⟨rfl, mode⟩ := isLeaves.mp leave
      have is : v.modeAfterPass .powerUp = v.setMode .maintenance := by unfold State.modeAfterPass; rw [mode]
      simp only [is, leave, enter, if_true, if_false, true_or, decide_false, Bool.false_and, List.filter_false, List.length_nil]
      exact ⟨modeTaken_setMode v .maintenance, rfl⟩
    · have is : v.modeAfterPass purpose = v := by
        unfold State.modeAfterPass
        split
        · next mode => exact absurd (isLeaves.mpr ⟨rfl, mode⟩) leave
        · next mode => exact absurd (isEnters.mpr ⟨rfl, mode⟩) enter
        · rfl
      simp only [is, leave, enter, if_false, or_false, decide_false, Bool.false_and, List.filter_false, List.length_nil]
      exact ⟨modeTaken_same v, trivial⟩

/-! ### The values handed out (R160) -/

/-- What handing out an image's values leaves: `u` once the account is held, `v` once the length of the interval has been applied, and `t`
at the end. -/
structure ValuesHanded (s u v t : State) (image : Image) : Prop where
  held : s.onlyChanges u [.inv, .slog, .pp, .settings]
  account : u.inv = heldAccount (.ofImage image) s.inv
  settings : u.settings = some (.ofImage image)
  log : (accountClamped (.ofImage image) s.inv → u.slog = { s.slog with
      current := s.slog.current.map fun r => { r with flags := { r.flags with clamped := true } } }) ∧
    (¬ accountClamped (.ofImage image) s.inv → u.slog = s.slog)
  plant : (accountClamped (.ofImage image) s.inv → s.raisedOnly u .pp .clamp) ∧
    (¬ accountClamped (.ofImage image) s.inv → u.port .pp = s.port .pp)
  length : v = u.applyLength (s.settings.map Settings.intervalLength)
  frame : v.onlyChanges t [.prj, .trc, .du, .rsv, .tp]
  record : ∀ x, t.train x = flaggedRecord ((Settings.ofImage image).trains.get x).installed (s.train x)
  setpoint : ∀ x, t.du.setpoint.get x =
    if (t.train x).state = .running then
      max ((Settings.ofImage image).trains.get x).minStable
        (min ((Settings.ofImage image).trains.get x).maxKw
          (if ((Settings.ofImage image).trains.get x).installed then s.du.setpoint.get x else 0))
    else if ((Settings.ofImage image).trains.get x).installed then s.du.setpoint.get x else 0
  rest : t.du = { s.du with setpoint := t.du.setpoint }
  generation : t.trc.generation = s.trc.generation + BitVec.ofNat 32
    (Train.all.filter fun x => isRemoved ((Settings.ofImage image).trains.get x).installed (s.train x)).length
  time : t.now = s.now
  reserve : (s.settings = none ∧ s.rsv.link = .linked →
      t.rsv = { s.rsv with granted := v.rsv.granted, linkTimer := some (s.now + (Settings.ofImage image).linkTimeout) }) ∧
    (¬ (s.settings = none ∧ s.rsv.link = .linked) → t.rsv = { s.rsv with granted := v.rsv.granted })
  trade : Trade s t fun c =>
    (c = .record ∧ lengthReached u (s.settings.map Settings.intervalLength) ∧ u.slog.current ≠ none) ∨
    (c = .capacity ∧ 0 < (Train.all.filter fun x => isRemoved ((Settings.ofImage image).trains.get x).installed (s.train x)).length)
  requests :
    let moved := (Train.all.filter fun x => isRemoved ((Settings.ofImage image).trains.get x).installed (s.train x)).length
    (lengthReached u (s.settings.map Settings.intervalLength) →
      t.afterRequests (defaultedBase image.defaultCheckMode s.prj) (1 + moved)) ∧
    (¬ lengthReached u (s.settings.map Settings.intervalLength) →
      t.afterRequests (defaultedBase image.defaultCheckMode s.prj) (0 + moved))

theorem applyLength_rsv (s : State) (old : Option ℕ) : (s.applyLength old).rsv = { s.rsv with granted := (s.applyLength old).rsv.granted } := by
  by_cases reached : lengthReached s old
  · obtain ⟨k, set, -⟩ := id reached
    rw [applyLength_of_reached reached, (boundary_takesBoundary set 0).grant]
  · rw [applyLength_of_not reached]

theorem applyLength_count (s : State) (old : Option ℕ) : (s.applyLength old).tb.count = s.tb.count := by
  by_cases reached : lengthReached s old
  · rw [applyLength_of_reached reached, boundary_tb]
  · rw [applyLength_of_not reached]

theorem handValues_handed (s : State) (image : Image) :
    ∃ u v, ValuesHanded s u v (s.handValues image) image := by
  have whole : s.handValues image =
      ((Train.all.foldl State.applyInstalled
        (((((s.withSettings (some (.ofImage image))).loadInventory (.ofImage image)).applyLength
          (s.settings.map Settings.intervalLength)).applyDefaultMode image.defaultCheckMode))).clampSetpoints).firstLinkLoad
        s.settings.isSome := rfl
  have fa := withSettings_frame s (some (.ofImage image))
  have loaded : (s.withSettings (some (.ofImage image))).settings = some (.ofImage image) := rfl
  have fb := loadInventory_frame (s.withSettings (some (.ofImage image))) (.ofImage image)
  have account := loadInventory_inv (s.withSettings (some (.ofImage image))) (.ofImage image)
  have log := loadInventory_slog (s.withSettings (some (.ofImage image))) (.ofImage image)
  have plant := loadInventory_pp (s.withSettings (some (.ofImage image))) (.ofImage image)
  rw [frame_inv fa] at account log plant
  rw [frame_slog fa] at log
  have plant' : (accountClamped (.ofImage image) s.inv →
        s.raisedOnly ((s.withSettings (some (.ofImage image))).loadInventory (.ofImage image)) .pp .clamp) ∧
      (¬ accountClamped (.ofImage image) s.inv →
        ((s.withSettings (some (.ofImage image))).loadInventory (.ofImage image)).port .pp = s.port .pp) := plant
  have held : s.onlyChanges ((s.withSettings (some (.ofImage image))).loadInventory (.ofImage image)) [.inv, .slog, .pp, .settings] :=
    onlyChanges_trans (onlyChanges_mono fa (by decide)) (onlyChanges_mono fb (by decide))
  have settings := (frame_settings fb).trans loaded
  rw [whole]
  clear whole plant fa fb loaded
  generalize (s.withSettings (some (.ofImage image))).loadInventory (.ofImage image) = b at account log plant' held settings ⊢
  have fd := applyLength_frame b (s.settings.map Settings.intervalLength)
  have tradeD := applyLength_trade b (s.settings.map Settings.intervalLength)
  have requestsD := applyLength_requests b (s.settings.map Settings.intervalLength)
  have rsvD := applyLength_rsv b (s.settings.map Settings.intervalLength)
  refine ⟨b, b.applyLength (s.settings.map Settings.intervalLength), ?_⟩
  generalize isLength : b.applyLength (s.settings.map Settings.intervalLength) = d at fd tradeD requestsD rsvD ⊢
  have fe := applyDefaultMode_frame d image.defaultCheckMode
  have requestsE {k : ℕ} (h : d.afterRequests s.prj k) := applyDefaultMode_requests image.defaultCheckMode h
  generalize d.applyDefaultMode image.defaultCheckMode = e at fe requestsE ⊢
  have fse : s.onlyChanges e [.inv, .slog, .pp, .settings, .tb, .book, .prj, .rsv, .tp, .gp] :=
    onlyChanges_trans (onlyChanges_mono held (by decide)) (onlyChanges_trans (onlyChanges_mono fd (by decide)) (onlyChanges_mono fe (by decide)))
  have loadedE : e.settings = some (.ofImage image) := (frame_settings fe).trans ((frame_settings fd).trans settings)
  have cfgE (x : Train) : e.trainCfg x = (Settings.ofImage image).trains.get x := by unfold State.trainCfg; rw [cfg_of_settings loadedE]
  have worked := applyInstalled_worked e
  simp only [cfgE, train_congr (frame_trc fse), frame_du fse] at worked
  generalize Train.all.foldl State.applyInstalled e = g at worked ⊢
  have fg := worked.moves.frame
  have all (x : Train) : x ∈ Train.all := by cases x <;> decide
  have fh : g.onlyChanges g.clampSetpoints [.du] := withDu_frame g _
  have setpoints (x : Train) := clampSetpoints_setpoint g x
  have cfgG (x : Train) : g.trainCfg x = (Settings.ofImage image).trains.get x := (trainCfg_congr (frame_settings fg) x).trans (cfgE x)
  have restH : g.clampSetpoints.du = { g.du with setpoint := g.clampSetpoints.du.setpoint } := rfl
  generalize g.clampSetpoints = h at fh setpoints restH ⊢
  have fi := firstLinkLoad_frame h s.settings.isSome
  have links := firstLinkLoad_rsv h s.settings
  generalize h.firstLinkLoad s.settings.isSome = i at fi links ⊢
  have fgi : g.onlyChanges i [.du, .rsv] := onlyChanges_trans (onlyChanges_mono fh (by decide)) (onlyChanges_mono fi (by decide))
  have rsvH : h.rsv = { s.rsv with granted := d.rsv.granted } := by
    rw [frame_rsv fh, frame_rsv fg, frame_rsv fe, rsvD, frame_rsv held]
  have nowH : h.now = s.now := (frame_now fh).trans ((frame_now fg).trans ((frame_now fe).trans (now_congr (by
    rw [← isLength, applyLength_count, frame_tb held]))))
  have cfgH : h.cfg = .ofImage image := cfg_of_settings ((frame_settings fh).trans ((frame_settings fg).trans loadedE))
  have setpointI (x : Train) : i.du.setpoint.get x = h.du.setpoint.get x := by rw [frame_du fi]
  have recordI (x : Train) : i.train x = g.train x := train_congr (frame_trc fgi) x
  refine
    { held := held, account := account, settings := settings, log := log, plant := plant', length := isLength.symm
      frame := ?_, record := fun x => (recordI x).trans (worked.worked x (all x)).1, setpoint := fun x => ?_, rest := ?_, generation := ?_
      time := (frame_now fi).trans nowH, reserve := ?_, trade := ?_, requests := ?_ }
  · exact onlyChanges_trans (onlyChanges_mono fe (by decide)) (onlyChanges_trans (onlyChanges_mono fg (by decide))
      (onlyChanges_mono fgi (by decide)))
  · rw [setpointI, setpoints, recordI, cfgG, (worked.worked x (all x)).2]
  · rw [frame_du fi, restH, worked.rest, frame_du fse]
  · rw [frame_trc fgi, worked.moves.generation, frame_trc fse]
  · rw [nowH, cfgH, rsvH] at links
    exact links
  · have before : Trade s b fun _ => False := trade_of_same (port_of_onlyChanges held .tp (by decide))
    have quiet : Trade d e fun _ => False := trade_of_same (port_of_onlyChanges fe .tp (by decide))
    have last : Trade g i fun _ => False := trade_of_same (port_of_onlyChanges fgi .tp (by decide))
    exact ((((before.trans tradeD).trans quiet).trans worked.moves.trade).trans last).congr fun c => by simp
  · have on {k : ℕ} (known : d.afterRequests s.prj k) := afterRequests_congr (worked.moves.requests _ k (requestsE known)) (frame_prj fgi)
      (by rw [frame_inv fgi]) (by rw [frame_tb fgi])
    rw [frame_prj held] at requestsD
    exact ⟨fun reached => on (requestsD.1 reached), fun not => on (requestsD.2 not)⟩

end Sys2Proof.Proofs
end

section
/-! A passing check as a whole (O31). -/

namespace Sys2Proof.Proofs
open Sys2Proof Sys2Proof.Machine

variable {s t u v w : State}

/-! ### The record of a train after a passing check (R86, R102, R107) -/

/-- The record of a train after a passing check: the installed flag first, then what entering SERVICE does. -/
def passedRecord (installed enters : Bool) (sensitivity : Sensitivity) (r : TrainRecord) : TrainRecord :=
  if enters then enteredRecord sensitivity (flaggedRecord installed r) else flaggedRecord installed r

theorem flaggedRecord_sensitivity (installed : Bool) (r : TrainRecord) : (flaggedRecord installed r).sensitivity = r.sensitivity := by
  cases installed <;> rfl

theorem passedRecord_sensitivity (installed enters : Bool) (sensitivity : Sensitivity) (r : TrainRecord) :
    (passedRecord installed enters sensitivity r).sensitivity = if enters then sensitivity else r.sensitivity := by
  unfold passedRecord
  cases enters with
  | true =>
    show (enteredRecord sensitivity (flaggedRecord installed r)).sensitivity = sensitivity
    unfold enteredRecord
    split <;> rfl
  | false => exact flaggedRecord_sensitivity installed r

/-- A train is released on entry to SERVICE exactly where R107's conditions hold of an installed LOCKED one. -/
theorem releasable_flagged (installed : Bool) (sensitivity : Sensitivity) (r : TrainRecord) :
    (sensedRecord sensitivity (flaggedRecord installed r)).releasable =
      (installed && decide (r.state = .locked) && r.cooldown.expired && r.releaseTaken && (decide (sensitivity = .edge) || r.lineHigh)) := by
  unfold TrainRecord.releasable sensedRecord flaggedRecord
  cases installed with
  | false => rfl
  | true =>
    have locked : decide ((if r.state = .absent then TrainState.offline else r.state) = .locked) = decide (r.state = .locked) := by
      cases r.state <;> rfl
    simp only [if_true, Bool.true_and, locked]

theorem passedRecord_absent {enters : Bool} {sensitivity : Sensitivity} {r : TrainRecord} :
    passedRecord false enters sensitivity r =
      { TrainRecord.afterReset r.lineHigh with sensitivity := (passedRecord false enters sensitivity r).sensitivity } := by
  rw [passedRecord_sensitivity]
  unfold passedRecord
  cases enters with
  | false => rfl
  | true =>
    have stays : (sensedRecord sensitivity (flaggedRecord false r)).releasable = false := releasable_flagged false sensitivity r
    unfold enteredRecord
    rw [stays]
    rfl

theorem passedRecord_installed {enters : Bool} {sensitivity : Sensitivity} {r : TrainRecord}
    (stays : (enters && (sensedRecord sensitivity (flaggedRecord true r)).releasable) = false) :
    passedRecord true enters sensitivity r =
      { r with
        state := if r.state = .absent then .offline else r.state
        sensitivity := (passedRecord true enters sensitivity r).sensitivity } := by
  rw [passedRecord_sensitivity]
  unfold passedRecord
  cases enters with
  | false => rfl
  | true =>
    unfold enteredRecord
    rw [Bool.true_and] at stays
    rw [stays]
    rfl

theorem passedRecord_released {installed enters : Bool} {sensitivity : Sensitivity} {r : TrainRecord}
    (leaves : (enters && (sensedRecord sensitivity (flaggedRecord installed r)).releasable) = true) :
    passedRecord installed enters sensitivity r =
      { r with
        state := .stopped, reason := none, releaseTaken := false, minDown := { expiry := none, expired := true }
        minRun := .stopped, start := .stopped, stop := .stopped, cooldown := .stopped
        sensitivity := (passedRecord installed enters sensitivity r).sensitivity } := by
  rw [passedRecord_sensitivity]
  obtain ⟨rfl, ready⟩ := Bool.and_eq_true_iff.mp leaves
  have isInstalled : installed = true := by
    rw [releasable_flagged] at ready
    simp only [Bool.and_eq_true] at ready
    exact ready.1.1.1.1
  subst isInstalled
  unfold passedRecord enteredRecord
  rw [ready]
  rfl

theorem flaggedRecord_running (installed : Bool) (r : TrainRecord) :
    (flaggedRecord installed r).state = .running ↔ installed = true ∧ r.state = .running := by
  unfold flaggedRecord
  cases installed with
  | false => simp [TrainRecord.afterReset]
  | true =>
    by_cases absent : r.state = .absent
    · simp [absent]
    · simp [absent]

/-! ### The whole check -/

/-- What a check that passes records of itself (R160). -/
def passedProfile (s : State) (image : Image) : State :=
  s.withProf { s.prof with bad := false, lastCheck := .pass, failingField := 0, activity := .idle, siteCode := image.field 1 }

theorem exec_profileCheckCompletion_of_pass {purpose : Purpose} {image : Image} (checks : s.prof.activity = .verifying purpose image)
    (passed : failingField image = none) :
    exec .profileCheckCompletion s =
      .next ((((passedProfile s image).handValues image).modeAfterPass purpose).raise .pp .profile) := by
  show execProfileCheckCompletion s = _
  unfold execProfileCheckCompletion
  rw [checks]
  dsimp only
  rw [passed]
  rfl

theorem sensitivity_of_field {image : Image} {x : Train} :
    (image.field (trainField x + 9) = 0 → image.sensitivity x = .edge) ∧
    (image.field (trainField x + 9) = 1 → image.sensitivity x = .edgeAndLevel) := by
  unfold Image.sensitivity
  exact ⟨fun zero => by rw [zero]; rfl, fun one => by rw [one]; rfl⟩

/-- The number of trains that a passed image makes ABSENT from an available state. -/
def removals (c : Settings) (s : State) : ℕ := (Train.all.filter fun x => isRemoved (c.trains.get x).installed (s.train x)).length

/-- The number of trains that entering SERVICE releases. -/
def releases (c : Settings) (s : State) (enters : Prop) [Decidable enters] : ℕ :=
  (Train.all.filter fun x => decide enters &&
    (sensedRecord (s.prof.working.sensitivity x) (flaggedRecord (c.trains.get x).installed (s.train x))).releasable).length

/-- A passing check from `s` to `t`: `u` once the account is held, `v` once the length of the interval has been applied; whether the
check leaves CHECKING or enters SERVICE. -/
structure PassingCheck (s u v t : State) (image : Image) (leaves enters : Prop) [Decidable leaves] [Decidable enters] : Prop where
  held : s.onlyChanges u [.inv, .slog, .prof, .pp, .settings]
  accountHeld : u.inv = heldAccount (.ofImage image) s.inv
  settingsHeld : u.settings = some (.ofImage image)
  log : (accountClamped (.ofImage image) s.inv → u.slog = { s.slog with
      current := s.slog.current.map fun r => { r with flags := { r.flags with clamped := true } } }) ∧
    (¬ accountClamped (.ofImage image) s.inv → u.slog = s.slog)
  length : v = u.applyLength (s.settings.map Settings.intervalLength)
  frame : v.onlyChanges t [.prj, .trc, .du, .rsv, .tp, .prof, .gp, .pp]
  plant : (accountClamped (.ofImage image) s.inv → t.port .pp =
      { s.port .pp with causes := (s.port .pp).causes ||| Cause.mask .pp .clamp ||| Cause.mask .pp .profile }) ∧
    (¬ accountClamped (.ofImage image) s.inv → s.raisedOnly t .pp .profile)
  grid : (leaves ∨ enters → v.raisedOnly t .gp .mode) ∧ (¬ (leaves ∨ enters) → t.port .gp = v.port .gp)
  profile : t.prof =
    { s.prof with
      bad := false, lastCheck := .pass, failingField := 0, activity := .idle, siteCode := image.field 1
      mode := if leaves then .maintenance else if enters then .service else s.prof.mode
      background := if enters then some (s.now + 3600) else s.prof.background }
  trade : Trade s t fun k =>
    (k = .record ∧ lengthReached u (s.settings.map Settings.intervalLength) ∧ u.slog.current ≠ none) ∨ (k = .mode ∧ (leaves ∨ enters)) ∨
    (k = .capacity ∧ (0 < removals (.ofImage image) s ∨ 0 < releases (.ofImage image) s enters))
  record : ∀ x, t.train x = passedRecord ((Settings.ofImage image).trains.get x).installed (decide enters)
    (s.prof.working.sensitivity x) (s.train x)
  setpoint : ∀ x, t.du.setpoint.get x =
    if ((Settings.ofImage image).trains.get x).installed = true ∧ (s.train x).state = .running then
      max ((Settings.ofImage image).trains.get x).minStable (min ((Settings.ofImage image).trains.get x).maxKw
        (if ((Settings.ofImage image).trains.get x).installed then s.du.setpoint.get x else 0))
    else if ((Settings.ofImage image).trains.get x).installed then s.du.setpoint.get x else 0
  rest : t.du = { s.du with setpoint := t.du.setpoint }
  generation : t.trc.generation =
    s.trc.generation + BitVec.ofNat 32 (removals (.ofImage image) s + releases (.ofImage image) s enters)
  requests :
    (lengthReached u (s.settings.map Settings.intervalLength) → t.afterRequests (defaultedBase image.defaultCheckMode s.prj)
      (1 + removals (.ofImage image) s + releases (.ofImage image) s enters + if enters then 1 else 0)) ∧
    (¬ lengthReached u (s.settings.map Settings.intervalLength) → t.afterRequests (defaultedBase image.defaultCheckMode s.prj)
      (0 + removals (.ofImage image) s + releases (.ofImage image) s enters + if enters then 1 else 0))
  reserve : (s.settings = none ∧ s.rsv.link = .linked →
      t.rsv = { s.rsv with granted := v.rsv.granted, linkTimer := some (s.now + (Settings.ofImage image).linkTimeout) }) ∧
    (¬ (s.settings = none ∧ s.rsv.link = .linked) → t.rsv = { s.rsv with granted := v.rsv.granted })

/-- The changes of the trade port's causes in a passing check, put together. -/
theorem passing_causes {record mode capacity bounds changes some more : Prop} :
    (((record ∧ bounds) ∨ (capacity ∧ some)) ∨ ((mode ∧ changes) ∨ (capacity ∧ more))) ∨ False ↔
      (record ∧ bounds) ∨ (mode ∧ changes) ∨ (capacity ∧ (some ∨ more)) := by tauto

theorem passingCheck_of {purpose : Purpose} {image : Image} {leaves enters : Prop} [Decidable leaves] [Decidable enters]
    (isLeaves : leaves ↔ purpose = .powerUp ∧ s.prof.mode = .checking) (isEnters : enters ↔ purpose = .entry ∧ s.prof.mode = .maintenance) :
    ∃ u v, PassingCheck s u v ((((passedProfile s image).handValues image).modeAfterPass purpose).raise .pp .profile) image leaves enters := by
  obtain ⟨u, v, handed⟩ := handValues_handed (passedProfile s image) image
  have profI : ((passedProfile s image).handValues image).prof = (passedProfile s image).prof :=
    frame_prof (handValues_frame (passedProfile s image) image)
  generalize (passedProfile s image).handValues image = i at handed profI
  have modeI : i.prof.mode = s.prof.mode := by rw [profI]; rfl
  have workingI : i.prof.working = s.prof.working := by rw [profI]; rfl
  obtain ⟨taken, profJ⟩ := modeAfterPass_taken i purpose (leaves := leaves) (enters := enters) (by rw [modeI]; exact isLeaves)
    (by rw [modeI]; exact isEnters)
  have recordI (x : Train) : i.train x = flaggedRecord ((Settings.ofImage image).trains.get x).installed (s.train x) := handed.record x
  rw [workingI] at taken
  simp only [recordI] at taken
  generalize i.modeAfterPass purpose = j at taken profJ
  have ends := raise_frame j .pp .profile
  have plantJ : j.port .pp = u.port .pp := by
    rw [port_of_onlyChanges taken.frame .pp (by decide), port_of_onlyChanges handed.frame .pp (by decide), handed.length,
      port_of_onlyChanges (applyLength_frame _ _) .pp (by decide)]
  have plantT : (j.raise .pp .profile).port .pp = { u.port .pp with causes := (u.port .pp).causes ||| Cause.mask .pp .profile } := by
    rw [port_raise, plantJ]
  have gridT : (j.raise .pp .profile).port .gp = j.port .gp := port_of_onlyChanges ends .gp (by decide)
  have gridI : i.port .gp = v.port .gp := port_of_onlyChanges handed.frame .gp (by decide)
  refine ⟨u, v,
    { held := onlyChanges_trans (t := passedProfile s image) (onlyChanges_mono (withProf_frame s _) (by decide))
        (onlyChanges_mono handed.held (by decide))
      accountHeld := handed.account, settingsHeld := handed.settings, log := handed.log, length := handed.length
      frame := onlyChanges_trans (onlyChanges_mono handed.frame (by decide)) (onlyChanges_trans (onlyChanges_mono taken.frame (by decide))
        (onlyChanges_mono ends (by decide)))
      plant := ⟨fun clamped => ?_, fun same => ?_⟩, grid := ⟨fun changes => ?_, fun same => ?_⟩
      profile := ?_, trade := ?_, record := fun x => ?_, setpoint := fun x => ?_, rest := ?_, generation := ?_, requests := ?_
      reserve := ?_ }⟩
  · have raised : u.port .pp = { s.port .pp with causes := (s.port .pp).causes ||| Cause.mask .pp .clamp } := handed.plant.1 clamped
    rw [plantT, raised]
  · have kept : u.port .pp = s.port .pp := handed.plant.2 same
    unfold State.raisedOnly
    rw [plantT, kept]
  · unfold State.raisedOnly
    rw [gridT, ← gridI]
    exact taken.gridChanged changes
  · rw [gridT, ← gridI]
    exact taken.gridSame same
  · rw [frame_prof ends, profJ, profI, handed.time]
    rfl
  · have first : Trade s i fun k =>
        (k = .record ∧ lengthReached u (s.settings.map Settings.intervalLength) ∧ u.slog.current ≠ none) ∨
        (k = .capacity ∧ 0 < removals (.ofImage image) s) := ⟨handed.trade.only, handed.trade.flags⟩
    have last : Trade j (j.raise .pp .profile) fun _ => False := trade_of_same (port_of_onlyChanges ends .tp (by decide))
    exact ((first.trans taken.trade).trans last).congr fun k => passing_causes
  · rw [train_congr (frame_trc ends), taken.record]
    unfold passedRecord
    by_cases enter : enters <;> simp [enter]
  · rw [frame_du ends, taken.setpoint]
    refine (handed.setpoint x).trans (if_congr ?_ rfl rfl)
    rw [recordI]
    exact flaggedRecord_running _ _
  · rw [frame_du ends, taken.rest, handed.rest]; rfl
  · rw [frame_trc ends, taken.generation, handed.generation, BitVec.add_assoc, ← BitVec.ofNat_add]; rfl
  · have on {k : ℕ} (known : i.afterRequests (defaultedBase image.defaultCheckMode s.prj) k) :=
      afterRequests_congr (t := j.raise .pp .profile) (taken.requests _ k known) (frame_prj ends) (by rw [frame_inv ends]) (by rw [frame_tb ends])
    exact ⟨fun reached => on (handed.requests.1 reached), fun not => on (handed.requests.2 not)⟩
  · rw [frame_rsv ends, frame_rsv taken.frame]
    exact handed.reserve

/-- Settles O31: `PassingCheck` read off clause by clause. -/
theorem passingCheckHandsOutItsValues : Obligations.PassingCheckHandsOutItsValues := by
  intro s purpose image checks passed c leaves enters bounds moded
  obtain ⟨u, v, check⟩ := passingCheck_of (s := s) (purpose := purpose) (image := image) (leaves := leaves) (enters := enters) .rfl .rfl
  have done := exec_profileCheckCompletion_of_pass checks passed
  have whole : s.onlyChanges ((((passedProfile s image).handValues image).modeAfterPass purpose).raise .pp .profile)
      [.inv, .tb, .book, .prj, .trc, .du, .rsv, .slog, .prof, .pp, .tp, .gp, .settings] := checkPassed_frame s purpose image
  generalize (((passedProfile s image).handValues image).modeAfterPass purpose).raise .pp .profile = t at check done whole
  have reached : lengthReached u (s.settings.map Settings.intervalLength) ↔ bounds := by
    unfold lengthReached
    rw [frame_tb check.held, cfg_of_settings check.settingsHeld]
    rfl
  have opened : u.slog.current ≠ none ↔ s.slog.current ≠ none := by
    by_cases clamped : accountClamped c s.inv
    · rw [check.log.1 clamped]; simp
    · rw [check.log.2 clamped]
  have inv : t.inv = heldAccount c s.inv := by
    rw [frame_inv check.frame, check.length, frame_inv (applyLength_frame _ _), check.accountHeld]
  have sense (x : Train) : (t.train x).sensitivity =
      if decide enters = true then s.prof.working.sensitivity x else (s.train x).sensitivity := by
    rw [check.record, passedRecord_sensitivity]
  refine ⟨t, done, whole, ?_, check.profile, ?_, fun x => ?_, ?_, check.trade.only, ?_, ?_, ?_, check.rest, fun x is running => ?_,
    fun x is idle => ?_, fun x => ?_, ?_⟩
  · rw [frame_settings check.frame, check.length, frame_settings (applyLength_frame _ _)]
    exact check.settingsHeld
  · rw [inv]; rfl
  · rw [inv]; exact PerTrain.get_of _ x
  · intro clamps
    have isClamped : clamps ↔ accountClamped c s.inv := by unfold accountClamped; rw [← inv]
    have gridT : t.port .gp = { v.port .gp with causes := moded (v.port .gp).causes } := by
      by_cases changes : leaves ∨ enters
      · exact (check.grid.1 changes).trans (by simp [moded, changes])
      · exact (check.grid.2 changes).trans (by simp [moded, changes])
    have granted : t.rsv.granted = v.rsv.granted := by
      by_cases first : s.settings = none ∧ s.rsv.link = .linked
      · rw [check.reserve.1 first]
      · rw [check.reserve.2 first]
    refine ⟨u.slog, fun is => check.log.1 (isClamped.mp is), fun not => check.log.2 fun is => not (isClamped.mpr is), ?_,
      fun inside => ?_, fun beyond k set => ?_⟩
    · by_cases clamped : clamps
      · exact (check.plant.1 (isClamped.mp clamped)).trans (by rw [if_pos clamped])
      · exact (check.plant.2 fun is => clamped (isClamped.mpr is)).trans (by rw [if_neg clamped])
    · have same : v = u := check.length.trans (applyLength_of_not fun is => inside (reached.mp is))
      have f := check.frame
      rw [same] at f gridT granted
      rw [port_of_onlyChanges check.held .gp (by decide)] at gridT
      exact ⟨(frame_tb f).trans (frame_tb check.held), (frame_book f).trans (frame_book check.held), frame_slog f,
        granted.trans (congrArg Reserve.granted (frame_rsv check.held)), gridT⟩
    · have taken : v = u.boundary 0 := check.length.trans (applyLength_of_reached (reached.mpr beyond))
      have setU : u.tb.clock = some k := by rw [frame_tb check.held]; exact set
      have clock : v.tb = { s.tb with clock := v.tb.clock } := by rw [taken, boundary_tb, frame_tb check.held]
      have takes : u.TakesBoundary v k 0 := taken ▸ boundary_takesBoundary setU 0
      exact ⟨u, v, check.held, check.accountHeld.trans inv.symm, rfl, check.settingsHeld, takes, (frame_tb check.frame).trans clock,
        frame_book check.frame, frame_slog check.frame, granted, gridT⟩
  · exact flagged_congr (check.trade.flags .record) (by rw [reached, opened]; simp)
  · exact flagged_congr (check.trade.flags .mode) (by simp)
  · intro removed released
    have isReleased : released = Train.all.filter fun x => decide enters &&
        (sensedRecord (s.prof.working.sensitivity x) (flaggedRecord (c.trains.get x).installed (s.train x))).releasable := by
      refine List.filter_congr fun x _ => ?_
      rw [releasable_flagged, sense]
      by_cases enter : enters
      · rw [if_pos (decide_eq_true enter)]
        simp only [Bool.and_assoc]
      · rw [decide_eq_false enter]
        rfl
    have mem (x : Train) : x ∈ released ↔ (decide enters &&
        (sensedRecord (s.prof.working.sensitivity x) (flaggedRecord (c.trains.get x).installed (s.train x))).releasable) = true := by
      rw [isReleased, List.mem_filter]
      exact and_iff_right (by cases x <;> decide)
    have removals_eq : removed.length = removals c s := rfl
    have releases_eq : released.length = releases c s enters := by rw [isReleased]; rfl
    clear_value removed released
    refine ⟨fun x absent => ⟨?_, ?_⟩, fun x is stays => ?_, fun x leave => ?_, ?_, ?_, ?_⟩
    · rw [check.record, absent]
      exact passedRecord_absent
    · rw [check.setpoint, if_neg (by rw [absent]; nofun), if_neg (by rw [absent]; nofun)]
    · have stays := Bool.eq_false_iff.mpr fun ready => stays ((mem x).mpr ready)
      rw [is] at stays
      rw [check.record, is]
      exact passedRecord_installed stays
    · rw [check.record]
      exact passedRecord_released ((mem x).mp leave)
    · rw [check.generation, removals_eq, releases_eq]
    · refine flagged_congr (check.trade.flags .capacity) ?_
      rw [← List.length_pos_iff, ← List.length_pos_iff, removals_eq, releases_eq]
      show _ ↔ 0 < removals (Settings.ofImage image) s ∨ 0 < releases (Settings.ofImage image) s enters
      simp
    · rw [removals_eq, releases_eq]
      by_cases is : bounds
      · rw [if_pos is]
        exact check.requests.1 (reached.mpr is)
      · rw [if_neg is]
        exact check.requests.2 fun yes => is (reached.mp yes)
  · rw [check.setpoint, if_pos ⟨is, running⟩, if_pos is]
  · rw [check.setpoint, if_neg fun both => idle both.2, if_pos is]
  · refine ⟨fun enter field => ?_, fun enter field => ?_, fun stays => ?_⟩
    · rw [sense, if_pos (decide_eq_true enter)]; exact sensitivity_of_field.1 field
    · rw [sense, if_pos (decide_eq_true enter)]; exact sensitivity_of_field.2 field
    · rw [sense, if_neg (by simpa using stays)]
  · by_cases first : s.settings = none ∧ s.rsv.link = .linked
    · rw [if_pos first, check.reserve.1 first]
    · rw [if_neg first, check.reserve.2 first]

end Sys2Proof.Proofs
end
